-- ==== Sys2Proof/Word.lean ====
section
/-! DEFINITION. The word types of CORE (00_scope.md R8, R10, R12) and one command's two words (30_encoding.md R110). -/

namespace Sys2Proof

/-- A 32-bit word of the command interface: CMD, ARG, RES, STATUS, FAULTCMD, FAULTARG (10_state.md R32). -/
abbrev Word := BitVec 32

/-- A byte of INBUF or OUTBUF (20_memory.md R91). -/
abbrev Byte := BitVec 8

/-- A binary32 pattern (00_scope.md R12): the type of every filter register. -/
abbrev F32 := BitVec 32

/-- The two words of one command (30_encoding.md R110). -/
structure Command where
  cmd : Word
  arg : Word
deriving DecidableEq, Repr

end Sys2Proof
end

