-- ==== Sys2Proof/Syntax.lean ====
section
/-! DEFINITION. The 70 commands of CORE, one constructor per row of 30_encoding.md R114 (spec/opcode_table.json).
A constructor holds the CMD fields the row leaves free, INST (a copy number `k` or a pattern slot `slot`) and IDX
(`n`), as unsigned integers (30_encoding.md R111), and the whole ARG word: bits of ARG that a command ignores have
no effect (00_scope.md R16) but FAULTARG keeps them (60_exceptions.md R333, log 6). -/

namespace Sys2Proof

/-- One command. The docstring of a constructor gives its mnemonic, its UNIT.OP (30_encoding.md R114) and its rule. -/
inductive Instr where
  /-- CTRL.NOP (0.0; 40_control.md R141). -/
  | ctrlNop (arg : Word)
  /-- CTRL.RSTALL (0.1; 40_control.md R142). -/
  | ctrlRstall (arg : Word)
  /-- CTRL.RDSTATUS (0.2; 40_control.md R143). -/
  | ctrlRdstatus (arg : Word)
  /-- CTRL.CLRERR (0.3; 40_control.md R144). -/
  | ctrlClrerr (arg : Word)
  /-- CTRL.RDID (0.4; 40_control.md R145). -/
  | ctrlRdid (arg : Word)
  /-- CTRL.RDPARAM (0.5; 40_control.md R146). -/
  | ctrlRdparam (n : Nat) (arg : Word)
  /-- CTRL.RDFCMD (0.6; 40_control.md R147). -/
  | ctrlRdfcmd (arg : Word)
  /-- CTRL.RDFARG (0.7; 40_control.md R148). -/
  | ctrlRdfarg (arg : Word)
  /-- FIR.RESET (1.0; 41_fir_iir.md R161). -/
  | firReset (k : Nat) (arg : Word)
  /-- FIR.SETTAP (1.1; 41_fir_iir.md R162). -/
  | firSettap (k n : Nat) (arg : Word)
  /-- FIR.STEP (1.2; 41_fir_iir.md R164). -/
  | firStep (k : Nat) (arg : Word)
  /-- FIR.STEPF (1.3; 41_fir_iir.md R165). -/
  | firStepf (k : Nat) (arg : Word)
  /-- FIR.RDTAP (1.4; 41_fir_iir.md R166). -/
  | firRdtap (k n : Nat) (arg : Word)
  /-- FIR.RDHIST (1.5; 41_fir_iir.md R167). -/
  | firRdhist (k n : Nat) (arg : Word)
  /-- FIR.RDN (1.6; 41_fir_iir.md R168). -/
  | firRdn (k : Nat) (arg : Word)
  /-- IIR.RESET (2.0; 41_fir_iir.md R171). -/
  | iirReset (k : Nat) (arg : Word)
  /-- IIR.SETNUM (2.1; 41_fir_iir.md R172). -/
  | iirSetnum (k n : Nat) (arg : Word)
  /-- IIR.SETDEN (2.2; 41_fir_iir.md R173). -/
  | iirSetden (k n : Nat) (arg : Word)
  /-- IIR.STEP (2.3; 41_fir_iir.md R174). -/
  | iirStep (k : Nat) (arg : Word)
  /-- IIR.STEPF (2.4; 41_fir_iir.md R175). -/
  | iirStepf (k : Nat) (arg : Word)
  /-- IIR.RDNUM (2.5; 41_fir_iir.md R176). -/
  | iirRdnum (k n : Nat) (arg : Word)
  /-- IIR.RDDEN (2.6; 41_fir_iir.md R177). -/
  | iirRdden (k n : Nat) (arg : Word)
  /-- IIR.RDHIST (2.7; 41_fir_iir.md R178). -/
  | iirRdhist (k n : Nat) (arg : Word)
  /-- IIR.RDN (2.8; 41_fir_iir.md R179). -/
  | iirRdn (k : Nat) (arg : Word)
  /-- PWM.RESET (3.0; 42_pwm.md R191). -/
  | pwmReset (k : Nat) (arg : Word)
  /-- PWM.STEP (3.1; 42_pwm.md R192). -/
  | pwmStep (k : Nat) (arg : Word)
  /-- PWM.RDCOEF (3.2; 42_pwm.md R193). -/
  | pwmRdcoef (k n : Nat) (arg : Word)
  /-- PWM.RDSTATE (3.3; 42_pwm.md R194). -/
  | pwmRdstate (k n : Nat) (arg : Word)
  /-- CR.RESET (4.0; 43_clock_recovery.md R200). -/
  | crReset (k : Nat) (arg : Word)
  /-- CR.SAMPLE (4.1; 43_clock_recovery.md R201). -/
  | crSample (k : Nat) (arg : Word)
  /-- CR.UPDATE (4.2; 43_clock_recovery.md R202). -/
  | crUpdate (k : Nat) (arg : Word)
  /-- CR.GETSP (4.3; 43_clock_recovery.md R204). -/
  | crGetsp (k : Nat) (arg : Word)
  /-- CR.RDENERGY (4.4; 43_clock_recovery.md R205). -/
  | crRdenergy (k n : Nat) (arg : Word)
  /-- CR.RDCOUNT (4.5; 43_clock_recovery.md R206). -/
  | crRdcount (k : Nat) (arg : Word)
  /-- CR.RDCURSOR (4.6; 43_clock_recovery.md R207). -/
  | crRdcursor (k : Nat) (arg : Word)
  /-- CR.RDPREV (4.7; 43_clock_recovery.md R208). -/
  | crRdprev (k : Nat) (arg : Word)
  /-- PRBS.RESET (5.0; 44_prbs9.md R222). -/
  | prbsReset (k : Nat) (arg : Word)
  /-- PRBS.GEN (5.1; 44_prbs9.md R221). -/
  | prbsGen (k : Nat) (arg : Word)
  /-- PRBS.SYNC (5.2; 44_prbs9.md R223). -/
  | prbsSync (k : Nat) (arg : Word)
  /-- PRBS.VALIDATE (5.3; 44_prbs9.md R224). -/
  | prbsValidate (k : Nat) (arg : Word)
  /-- PRBS.RDSTATE (5.4; 44_prbs9.md R225). -/
  | prbsRdstate (k : Nat) (arg : Word)
  /-- GOLAY.CSUM (6.0; 45_golay.md R242). -/
  | golayCsum (arg : Word)
  /-- GOLAY.ENC (6.1; 45_golay.md R243). -/
  | golayEnc (arg : Word)
  /-- GOLAY.DETECT (6.2; 45_golay.md R245). -/
  | golayDetect (arg : Word)
  /-- GOLAY.DECODE (6.3; 45_golay.md R246). -/
  | golayDecode (arg : Word)
  /-- PUNC.WRIN (7.0; 46_puncture.md R270). -/
  | puncWrin (n : Nat) (arg : Word)
  /-- PUNC.RDIN (7.1; 46_puncture.md R271). -/
  | puncRdin (n : Nat) (arg : Word)
  /-- PUNC.WROUT (7.2; 46_puncture.md R272). -/
  | puncWrout (n : Nat) (arg : Word)
  /-- PUNC.RDOUT (7.3; 46_puncture.md R273). -/
  | puncRdout (n : Nat) (arg : Word)
  /-- PUNC.SETPAT (7.4; 46_puncture.md R274). -/
  | puncSetpat (slot n : Nat) (arg : Word)
  /-- PUNC.RDPAT (7.5; 46_puncture.md R275). -/
  | puncRdpat (slot n : Nat) (arg : Word)
  /-- PUNC.SETPLEN (7.6; 46_puncture.md R276). -/
  | puncSetplen (slot : Nat) (arg : Word)
  /-- PUNC.RDPLEN (7.7; 46_puncture.md R277). -/
  | puncRdplen (slot : Nat) (arg : Word)
  /-- PUNC.PUNCT (7.8; 46_puncture.md R278). -/
  | puncPunct (slot : Nat) (arg : Word)
  /-- PUNC.DEPUNCT (7.9; 46_puncture.md R279). -/
  | puncDepunct (slot : Nat) (arg : Word)
  /-- DCR.RESET (8.0; 47_dsp_conditioning.md R290). -/
  | dcrReset (k : Nat) (arg : Word)
  /-- DCR.SETALPHA (8.1; 47_dsp_conditioning.md R291). -/
  | dcrSetalpha (k : Nat) (arg : Word)
  /-- DCR.STEP (8.2; 47_dsp_conditioning.md R292). -/
  | dcrStep (k : Nat) (arg : Word)
  /-- DCR.RDALPHA (8.3; 47_dsp_conditioning.md R293). -/
  | dcrRdalpha (k : Nat) (arg : Word)
  /-- DCR.RDSTATE (8.4; 47_dsp_conditioning.md R294). -/
  | dcrRdstate (k n : Nat) (arg : Word)
  /-- NG.RESET (9.0; 47_dsp_conditioning.md R300). -/
  | ngReset (k : Nat) (arg : Word)
  /-- NG.SETCFG (9.1; 47_dsp_conditioning.md R301). -/
  | ngSetcfg (k n : Nat) (arg : Word)
  /-- NG.STEP (9.2; 47_dsp_conditioning.md R302). -/
  | ngStep (k : Nat) (arg : Word)
  /-- NG.RDCFG (9.3; 47_dsp_conditioning.md R303). -/
  | ngRdcfg (k n : Nat) (arg : Word)
  /-- NG.RDSTATE (9.4; 47_dsp_conditioning.md R304). -/
  | ngRdstate (k n : Nat) (arg : Word)
  /-- CONV.NEG (10.0; 47_dsp_conditioning.md R310). -/
  | convNeg (arg : Word)
  /-- CONV.S16TOU12 (10.1; 47_dsp_conditioning.md R311). -/
  | convS16tou12 (arg : Word)
  /-- CONV.S16TOU8 (10.2; 47_dsp_conditioning.md R312). -/
  | convS16tou8 (arg : Word)
  /-- CONV.U12TOS16 (10.3; 47_dsp_conditioning.md R313). -/
  | convU12tos16 (arg : Word)
  /-- CONV.U8TOS16 (10.4; 47_dsp_conditioning.md R314). -/
  | convU8tos16 (arg : Word)
deriving DecidableEq, Repr

namespace Instr

/-- The ARG word of a command (30_encoding.md R110). -/
def arg : Instr → Word
  | .ctrlNop a => a
  | .ctrlRstall a => a
  | .ctrlRdstatus a => a
  | .ctrlClrerr a => a
  | .ctrlRdid a => a
  | .ctrlRdparam _ a => a
  | .ctrlRdfcmd a => a
  | .ctrlRdfarg a => a
  | .firReset _ a => a
  | .firSettap _ _ a => a
  | .firStep _ a => a
  | .firStepf _ a => a
  | .firRdtap _ _ a => a
  | .firRdhist _ _ a => a
  | .firRdn _ a => a
  | .iirReset _ a => a
  | .iirSetnum _ _ a => a
  | .iirSetden _ _ a => a
  | .iirStep _ a => a
  | .iirStepf _ a => a
  | .iirRdnum _ _ a => a
  | .iirRdden _ _ a => a
  | .iirRdhist _ _ a => a
  | .iirRdn _ a => a
  | .pwmReset _ a => a
  | .pwmStep _ a => a
  | .pwmRdcoef _ _ a => a
  | .pwmRdstate _ _ a => a
  | .crReset _ a => a
  | .crSample _ a => a
  | .crUpdate _ a => a
  | .crGetsp _ a => a
  | .crRdenergy _ _ a => a
  | .crRdcount _ a => a
  | .crRdcursor _ a => a
  | .crRdprev _ a => a
  | .prbsReset _ a => a
  | .prbsGen _ a => a
  | .prbsSync _ a => a
  | .prbsValidate _ a => a
  | .prbsRdstate _ a => a
  | .golayCsum a => a
  | .golayEnc a => a
  | .golayDetect a => a
  | .golayDecode a => a
  | .puncWrin _ a => a
  | .puncRdin _ a => a
  | .puncWrout _ a => a
  | .puncRdout _ a => a
  | .puncSetpat _ _ a => a
  | .puncRdpat _ _ a => a
  | .puncSetplen _ a => a
  | .puncRdplen _ a => a
  | .puncPunct _ a => a
  | .puncDepunct _ a => a
  | .dcrReset _ a => a
  | .dcrSetalpha _ a => a
  | .dcrStep _ a => a
  | .dcrRdalpha _ a => a
  | .dcrRdstate _ _ a => a
  | .ngReset _ a => a
  | .ngSetcfg _ _ a => a
  | .ngStep _ a => a
  | .ngRdcfg _ _ a => a
  | .ngRdstate _ _ a => a
  | .convNeg a => a
  | .convS16tou12 a => a
  | .convS16tou8 a => a
  | .convU12tos16 a => a
  | .convU8tos16 a => a

end Instr

end Sys2Proof
end

