-- ==== Sys2Proof/WellFormed.lean ====
section
/-! DEFINITION. When a command can be encoded: INST fits its four bits and IDX its twelve (30_encoding.md R111).
Whether INST and IDX are in the range of the configuration is no question of form: 60_exceptions.md R334 answers it
with a fault when the command runs. -/

namespace Sys2Proof

/-- INST is a 4-bit field (30_encoding.md R111). -/
def instFits (k : Nat) : Bool := decide (k < 16)

/-- IDX is a 12-bit field (30_encoding.md R111). -/
def idxFits (n : Nat) : Bool := decide (n < 4096)

namespace Instr

/-- The command's free fields fit the command word (30_encoding.md R111, R113). -/
def wf : Instr → Bool
  | .ctrlNop _ => true
  | .ctrlRstall _ => true
  | .ctrlRdstatus _ => true
  | .ctrlClrerr _ => true
  | .ctrlRdid _ => true
  | .ctrlRdparam n _ => idxFits n
  | .ctrlRdfcmd _ => true
  | .ctrlRdfarg _ => true
  | .firReset k _ => instFits k
  | .firSettap k n _ => instFits k && idxFits n
  | .firStep k _ => instFits k
  | .firStepf k _ => instFits k
  | .firRdtap k n _ => instFits k && idxFits n
  | .firRdhist k n _ => instFits k && idxFits n
  | .firRdn k _ => instFits k
  | .iirReset k _ => instFits k
  | .iirSetnum k n _ => instFits k && idxFits n
  | .iirSetden k n _ => instFits k && idxFits n
  | .iirStep k _ => instFits k
  | .iirStepf k _ => instFits k
  | .iirRdnum k n _ => instFits k && idxFits n
  | .iirRdden k n _ => instFits k && idxFits n
  | .iirRdhist k n _ => instFits k && idxFits n
  | .iirRdn k _ => instFits k
  | .pwmReset k _ => instFits k
  | .pwmStep k _ => instFits k
  | .pwmRdcoef k n _ => instFits k && idxFits n
  | .pwmRdstate k n _ => instFits k && idxFits n
  | .crReset k _ => instFits k
  | .crSample k _ => instFits k
  | .crUpdate k _ => instFits k
  | .crGetsp k _ => instFits k
  | .crRdenergy k n _ => instFits k && idxFits n
  | .crRdcount k _ => instFits k
  | .crRdcursor k _ => instFits k
  | .crRdprev k _ => instFits k
  | .prbsReset k _ => instFits k
  | .prbsGen k _ => instFits k
  | .prbsSync k _ => instFits k
  | .prbsValidate k _ => instFits k
  | .prbsRdstate k _ => instFits k
  | .golayCsum _ => true
  | .golayEnc _ => true
  | .golayDetect _ => true
  | .golayDecode _ => true
  | .puncWrin n _ => idxFits n
  | .puncRdin n _ => idxFits n
  | .puncWrout n _ => idxFits n
  | .puncRdout n _ => idxFits n
  | .puncSetpat slot n _ => instFits slot && idxFits n
  | .puncRdpat slot n _ => instFits slot && idxFits n
  | .puncSetplen slot _ => instFits slot
  | .puncRdplen slot _ => instFits slot
  | .puncPunct slot _ => instFits slot
  | .puncDepunct slot _ => instFits slot
  | .dcrReset k _ => instFits k
  | .dcrSetalpha k _ => instFits k
  | .dcrStep k _ => instFits k
  | .dcrRdalpha k _ => instFits k
  | .dcrRdstate k n _ => instFits k && idxFits n
  | .ngReset k _ => instFits k
  | .ngSetcfg k n _ => instFits k && idxFits n
  | .ngStep k _ => instFits k
  | .ngRdcfg k n _ => instFits k && idxFits n
  | .ngRdstate k n _ => instFits k && idxFits n
  | .convNeg _ => true
  | .convS16tou12 _ => true
  | .convS16tou8 _ => true
  | .convU12tos16 _ => true
  | .convU8tos16 _ => true

end Instr

end Sys2Proof
end

