-- ==== Sys2Proof/Decode.lean ====
section
/-! DEFINITION. The decoder and the encoder of command words, from 30_encoding.md R110 to R116. The decoder makes the
checks 1 to 3 of 60_exceptions.md R334; the checks that need the machine's state are made by the meanings. -/

namespace Sys2Proof

/-- `w[hi:lo]` read as an unsigned integer (00_scope.md R10). -/
def bits (w : Word) (hi lo : Nat) : Nat := w.toNat / 2 ^ lo % 2 ^ (hi + 1 - lo)

/-- The five fields of a command word (30_encoding.md R111). -/
structure Fields where
  unit : Nat
  op   : Nat
  inst : Nat
  idx  : Nat
  rsv  : Nat
deriving DecidableEq, Repr

/-- The fields of CMD (30_encoding.md R111). -/
def fieldsOf (cmd : Word) : Fields where
  unit := bits cmd 31 28
  op   := bits cmd 27 24
  inst := bits cmd 23 20
  idx  := bits cmd 19 8
  rsv  := bits cmd 7 0

/-- The command word with the given fields (30_encoding.md R111). -/
def pack (f : Fields) : Word :=
  BitVec.ofNat 32 (f.unit * 2 ^ 28 + f.op * 2 ^ 24 + f.inst * 2 ^ 20 + f.idx * 2 ^ 8 + f.rsv)

/-- Why the decoder rejects a command word (30_encoding.md R115). -/
inductive DecodeError where
  /-- UNIT is reserved, or OP is not assigned in the unit: checks 1 and 2 of 60_exceptions.md R334. -/
  | illegalOpcode
  /-- RSV is not 0, or INST or IDX is not 0 where the row requires 0: check 3 of 60_exceptions.md R334. -/
  | reservedField
deriving DecidableEq, Repr

/-- The decoder's answer. -/
abbrev Decoded := Except DecodeError Instr

/-- The instruction, if the fields that the row fixes at 0 are 0 (check 3 of 60_exceptions.md R334). -/
def ifZero (fixedAreZero : Bool) (i : Instr) : Decoded :=
  if fixedAreZero then .ok i else .error .reservedField

/-- A row of 30_encoding.md R114 with INST "0" and IDX "0". -/
def plain (f : Fields) (i : Instr) : Decoded := ifZero (f.rsv == 0 && f.inst == 0 && f.idx == 0) i

/-- A row of 30_encoding.md R114 with INST k or s, and IDX "0". -/
def withInst (f : Fields) (i : Instr) : Decoded := ifZero (f.rsv == 0 && f.idx == 0) i

/-- A row of 30_encoding.md R114 with INST "0" and a named IDX. -/
def withIdx (f : Fields) (i : Instr) : Decoded := ifZero (f.rsv == 0 && f.inst == 0) i

/-- A row of 30_encoding.md R114 with INST k or s, and a named IDX. -/
def withBoth (f : Fields) (i : Instr) : Decoded := ifZero (f.rsv == 0) i

/-- The rows of UNIT 0 (30_encoding.md R114); an OP not listed is illegal (R115). -/
def decodeCtrl (f : Fields) (arg : Word) : Decoded :=
  match f.op with
  | 0 => plain f (.ctrlNop arg)
  | 1 => plain f (.ctrlRstall arg)
  | 2 => plain f (.ctrlRdstatus arg)
  | 3 => plain f (.ctrlClrerr arg)
  | 4 => plain f (.ctrlRdid arg)
  | 5 => withIdx f (.ctrlRdparam f.idx arg)
  | 6 => plain f (.ctrlRdfcmd arg)
  | 7 => plain f (.ctrlRdfarg arg)
  | _ => .error .illegalOpcode

/-- The rows of UNIT 1 (30_encoding.md R114); an OP not listed is illegal (R115). -/
def decodeFir (f : Fields) (arg : Word) : Decoded :=
  match f.op with
  | 0 => withInst f (.firReset f.inst arg)
  | 1 => withBoth f (.firSettap f.inst f.idx arg)
  | 2 => withInst f (.firStep f.inst arg)
  | 3 => withInst f (.firStepf f.inst arg)
  | 4 => withBoth f (.firRdtap f.inst f.idx arg)
  | 5 => withBoth f (.firRdhist f.inst f.idx arg)
  | 6 => withInst f (.firRdn f.inst arg)
  | _ => .error .illegalOpcode

/-- The rows of UNIT 2 (30_encoding.md R114); an OP not listed is illegal (R115). -/
def decodeIir (f : Fields) (arg : Word) : Decoded :=
  match f.op with
  | 0 => withInst f (.iirReset f.inst arg)
  | 1 => withBoth f (.iirSetnum f.inst f.idx arg)
  | 2 => withBoth f (.iirSetden f.inst f.idx arg)
  | 3 => withInst f (.iirStep f.inst arg)
  | 4 => withInst f (.iirStepf f.inst arg)
  | 5 => withBoth f (.iirRdnum f.inst f.idx arg)
  | 6 => withBoth f (.iirRdden f.inst f.idx arg)
  | 7 => withBoth f (.iirRdhist f.inst f.idx arg)
  | 8 => withInst f (.iirRdn f.inst arg)
  | _ => .error .illegalOpcode

/-- The rows of UNIT 3 (30_encoding.md R114); an OP not listed is illegal (R115). -/
def decodePwm (f : Fields) (arg : Word) : Decoded :=
  match f.op with
  | 0 => withInst f (.pwmReset f.inst arg)
  | 1 => withInst f (.pwmStep f.inst arg)
  | 2 => withBoth f (.pwmRdcoef f.inst f.idx arg)
  | 3 => withBoth f (.pwmRdstate f.inst f.idx arg)
  | _ => .error .illegalOpcode

/-- The rows of UNIT 4 (30_encoding.md R114); an OP not listed is illegal (R115). -/
def decodeCr (f : Fields) (arg : Word) : Decoded :=
  match f.op with
  | 0 => withInst f (.crReset f.inst arg)
  | 1 => withInst f (.crSample f.inst arg)
  | 2 => withInst f (.crUpdate f.inst arg)
  | 3 => withInst f (.crGetsp f.inst arg)
  | 4 => withBoth f (.crRdenergy f.inst f.idx arg)
  | 5 => withInst f (.crRdcount f.inst arg)
  | 6 => withInst f (.crRdcursor f.inst arg)
  | 7 => withInst f (.crRdprev f.inst arg)
  | _ => .error .illegalOpcode

/-- The rows of UNIT 5 (30_encoding.md R114); an OP not listed is illegal (R115). -/
def decodePrbs (f : Fields) (arg : Word) : Decoded :=
  match f.op with
  | 0 => withInst f (.prbsReset f.inst arg)
  | 1 => withInst f (.prbsGen f.inst arg)
  | 2 => withInst f (.prbsSync f.inst arg)
  | 3 => withInst f (.prbsValidate f.inst arg)
  | 4 => withInst f (.prbsRdstate f.inst arg)
  | _ => .error .illegalOpcode

/-- The rows of UNIT 6 (30_encoding.md R114); an OP not listed is illegal (R115). -/
def decodeGolay (f : Fields) (arg : Word) : Decoded :=
  match f.op with
  | 0 => plain f (.golayCsum arg)
  | 1 => plain f (.golayEnc arg)
  | 2 => plain f (.golayDetect arg)
  | 3 => plain f (.golayDecode arg)
  | _ => .error .illegalOpcode

/-- The rows of UNIT 7 (30_encoding.md R114); an OP not listed is illegal (R115). -/
def decodePunc (f : Fields) (arg : Word) : Decoded :=
  match f.op with
  | 0 => withIdx f (.puncWrin f.idx arg)
  | 1 => withIdx f (.puncRdin f.idx arg)
  | 2 => withIdx f (.puncWrout f.idx arg)
  | 3 => withIdx f (.puncRdout f.idx arg)
  | 4 => withBoth f (.puncSetpat f.inst f.idx arg)
  | 5 => withBoth f (.puncRdpat f.inst f.idx arg)
  | 6 => withInst f (.puncSetplen f.inst arg)
  | 7 => withInst f (.puncRdplen f.inst arg)
  | 8 => withInst f (.puncPunct f.inst arg)
  | 9 => withInst f (.puncDepunct f.inst arg)
  | _ => .error .illegalOpcode

/-- The rows of UNIT 8 (30_encoding.md R114); an OP not listed is illegal (R115). -/
def decodeDcr (f : Fields) (arg : Word) : Decoded :=
  match f.op with
  | 0 => withInst f (.dcrReset f.inst arg)
  | 1 => withInst f (.dcrSetalpha f.inst arg)
  | 2 => withInst f (.dcrStep f.inst arg)
  | 3 => withInst f (.dcrRdalpha f.inst arg)
  | 4 => withBoth f (.dcrRdstate f.inst f.idx arg)
  | _ => .error .illegalOpcode

/-- The rows of UNIT 9 (30_encoding.md R114); an OP not listed is illegal (R115). -/
def decodeNg (f : Fields) (arg : Word) : Decoded :=
  match f.op with
  | 0 => withInst f (.ngReset f.inst arg)
  | 1 => withBoth f (.ngSetcfg f.inst f.idx arg)
  | 2 => withInst f (.ngStep f.inst arg)
  | 3 => withBoth f (.ngRdcfg f.inst f.idx arg)
  | 4 => withBoth f (.ngRdstate f.inst f.idx arg)
  | _ => .error .illegalOpcode

/-- The rows of UNIT 10 (30_encoding.md R114); an OP not listed is illegal (R115). -/
def decodeConv (f : Fields) (arg : Word) : Decoded :=
  match f.op with
  | 0 => plain f (.convNeg arg)
  | 1 => plain f (.convS16tou12 arg)
  | 2 => plain f (.convS16tou8 arg)
  | 3 => plain f (.convU12tos16 arg)
  | 4 => plain f (.convU8tos16 arg)
  | _ => .error .illegalOpcode

/-- Decode the fields of a command word: the row is selected by UNIT and OP (30_encoding.md R110, R112); UNIT 11 to
15 are reserved (R115). -/
def decodeFields (f : Fields) (arg : Word) : Decoded :=
  match f.unit with
  | 0 => decodeCtrl f arg
  | 1 => decodeFir f arg
  | 2 => decodeIir f arg
  | 3 => decodePwm f arg
  | 4 => decodeCr f arg
  | 5 => decodePrbs f arg
  | 6 => decodeGolay f arg
  | 7 => decodePunc f arg
  | 8 => decodeDcr f arg
  | 9 => decodeNg f arg
  | 10 => decodeConv f arg
  | _ => .error .illegalOpcode

/-- The decoder: total on every pair of words (30_encoding.md R116). -/
def decode (c : Command) : Decoded := decodeFields (fieldsOf c.cmd) c.arg

/-- The CMD fields of a command (30_encoding.md R114). RSV is 0 in every command (R111). -/
def Instr.fields : Instr → Fields
  | .ctrlNop _ => ⟨0, 0, 0, 0, 0⟩
  | .ctrlRstall _ => ⟨0, 1, 0, 0, 0⟩
  | .ctrlRdstatus _ => ⟨0, 2, 0, 0, 0⟩
  | .ctrlClrerr _ => ⟨0, 3, 0, 0, 0⟩
  | .ctrlRdid _ => ⟨0, 4, 0, 0, 0⟩
  | .ctrlRdparam n _ => ⟨0, 5, 0, n, 0⟩
  | .ctrlRdfcmd _ => ⟨0, 6, 0, 0, 0⟩
  | .ctrlRdfarg _ => ⟨0, 7, 0, 0, 0⟩
  | .firReset k _ => ⟨1, 0, k, 0, 0⟩
  | .firSettap k n _ => ⟨1, 1, k, n, 0⟩
  | .firStep k _ => ⟨1, 2, k, 0, 0⟩
  | .firStepf k _ => ⟨1, 3, k, 0, 0⟩
  | .firRdtap k n _ => ⟨1, 4, k, n, 0⟩
  | .firRdhist k n _ => ⟨1, 5, k, n, 0⟩
  | .firRdn k _ => ⟨1, 6, k, 0, 0⟩
  | .iirReset k _ => ⟨2, 0, k, 0, 0⟩
  | .iirSetnum k n _ => ⟨2, 1, k, n, 0⟩
  | .iirSetden k n _ => ⟨2, 2, k, n, 0⟩
  | .iirStep k _ => ⟨2, 3, k, 0, 0⟩
  | .iirStepf k _ => ⟨2, 4, k, 0, 0⟩
  | .iirRdnum k n _ => ⟨2, 5, k, n, 0⟩
  | .iirRdden k n _ => ⟨2, 6, k, n, 0⟩
  | .iirRdhist k n _ => ⟨2, 7, k, n, 0⟩
  | .iirRdn k _ => ⟨2, 8, k, 0, 0⟩
  | .pwmReset k _ => ⟨3, 0, k, 0, 0⟩
  | .pwmStep k _ => ⟨3, 1, k, 0, 0⟩
  | .pwmRdcoef k n _ => ⟨3, 2, k, n, 0⟩
  | .pwmRdstate k n _ => ⟨3, 3, k, n, 0⟩
  | .crReset k _ => ⟨4, 0, k, 0, 0⟩
  | .crSample k _ => ⟨4, 1, k, 0, 0⟩
  | .crUpdate k _ => ⟨4, 2, k, 0, 0⟩
  | .crGetsp k _ => ⟨4, 3, k, 0, 0⟩
  | .crRdenergy k n _ => ⟨4, 4, k, n, 0⟩
  | .crRdcount k _ => ⟨4, 5, k, 0, 0⟩
  | .crRdcursor k _ => ⟨4, 6, k, 0, 0⟩
  | .crRdprev k _ => ⟨4, 7, k, 0, 0⟩
  | .prbsReset k _ => ⟨5, 0, k, 0, 0⟩
  | .prbsGen k _ => ⟨5, 1, k, 0, 0⟩
  | .prbsSync k _ => ⟨5, 2, k, 0, 0⟩
  | .prbsValidate k _ => ⟨5, 3, k, 0, 0⟩
  | .prbsRdstate k _ => ⟨5, 4, k, 0, 0⟩
  | .golayCsum _ => ⟨6, 0, 0, 0, 0⟩
  | .golayEnc _ => ⟨6, 1, 0, 0, 0⟩
  | .golayDetect _ => ⟨6, 2, 0, 0, 0⟩
  | .golayDecode _ => ⟨6, 3, 0, 0, 0⟩
  | .puncWrin n _ => ⟨7, 0, 0, n, 0⟩
  | .puncRdin n _ => ⟨7, 1, 0, n, 0⟩
  | .puncWrout n _ => ⟨7, 2, 0, n, 0⟩
  | .puncRdout n _ => ⟨7, 3, 0, n, 0⟩
  | .puncSetpat slot n _ => ⟨7, 4, slot, n, 0⟩
  | .puncRdpat slot n _ => ⟨7, 5, slot, n, 0⟩
  | .puncSetplen slot _ => ⟨7, 6, slot, 0, 0⟩
  | .puncRdplen slot _ => ⟨7, 7, slot, 0, 0⟩
  | .puncPunct slot _ => ⟨7, 8, slot, 0, 0⟩
  | .puncDepunct slot _ => ⟨7, 9, slot, 0, 0⟩
  | .dcrReset k _ => ⟨8, 0, k, 0, 0⟩
  | .dcrSetalpha k _ => ⟨8, 1, k, 0, 0⟩
  | .dcrStep k _ => ⟨8, 2, k, 0, 0⟩
  | .dcrRdalpha k _ => ⟨8, 3, k, 0, 0⟩
  | .dcrRdstate k n _ => ⟨8, 4, k, n, 0⟩
  | .ngReset k _ => ⟨9, 0, k, 0, 0⟩
  | .ngSetcfg k n _ => ⟨9, 1, k, n, 0⟩
  | .ngStep k _ => ⟨9, 2, k, 0, 0⟩
  | .ngRdcfg k n _ => ⟨9, 3, k, n, 0⟩
  | .ngRdstate k n _ => ⟨9, 4, k, n, 0⟩
  | .convNeg _ => ⟨10, 0, 0, 0, 0⟩
  | .convS16tou12 _ => ⟨10, 1, 0, 0, 0⟩
  | .convS16tou8 _ => ⟨10, 2, 0, 0, 0⟩
  | .convU12tos16 _ => ⟨10, 3, 0, 0, 0⟩
  | .convU8tos16 _ => ⟨10, 4, 0, 0, 0⟩

/-- The encoder: the two words of a command (30_encoding.md R110, R111, R114). -/
def encode (i : Instr) : Command := ⟨pack i.fields, i.arg⟩

/-- The command whose bits are `w`, CMD in bits 31:0 and ARG in bits 63:32 (30_encoding.md R110: CMD is the first
word), where only the `nbits` low bits of `w` are given and every bit above them is 0 (log 18). -/
def commandOfBits (nbits w : Nat) : Command :=
  ⟨BitVec.ofNat 32 (w % 2 ^ nbits), BitVec.ofNat 32 (w % 2 ^ nbits / 2 ^ 32)⟩

/-- The instruction the decoder reads from the command whose bits are `w`. -/
def decodeTableWord (nbits w : Nat) : Option Instr := (decode (commandOfBits nbits w)).toOption

end Sys2Proof
end

