-- ==== Sys2Proof/Config.lean ====
section
/-! DEFINITION. The implementation parameters of 00_scope.md R7 and the fixed constants. A `Config` is fixed for the
life of a machine: State holds one and no step changes it (log 1). -/

namespace Sys2Proof

/-- The five PWM coefficients in the order PWM.RDCOEF reads them (10_state.md R38). -/
structure PwmCoef where
  b0 : F32
  b1 : F32
  b2 : F32
  a1 : F32
  a2 : F32
deriving DecidableEq, Repr

/-- The parameters of 00_scope.md R7. NFIR and NIIR are the lengths of `firNtaps` and `iirN`, which give one entry
for each filter of the bank. -/
structure Config where
  sps       : Nat
  firNtaps  : List Nat
  iirN      : List Nat
  npwm      : Nat
  pwmCoef   : PwmCoef
  ncr       : Nat
  nprbs     : Nat
  ndcr      : Nat
  nng       : Nat
  pbufBytes : Nat
  pmax      : Nat
  npat      : Nat
  golayE    : List (BitVec 12)
deriving DecidableEq, Repr

namespace Config

/-- NFIR (00_scope.md R7). -/
def nfir (c : Config) : Nat := c.firNtaps.length

/-- NIIR (00_scope.md R7). -/
def niir (c : Config) : Nat := c.iirN.length

/-- FIR_NTAPS[k] (00_scope.md R7); 0 where there is no filter k. -/
def firN (c : Config) (k : Nat) : Nat := c.firNtaps.getD k 0

/-- IIR_N[k] (00_scope.md R7); 0 where there is no filter k. -/
def iirLen (c : Config) (k : Nat) : Nat := c.iirN.getD k 0

/-- An instance count of 00_scope.md R7 lies in 1..16. -/
abbrev CountOk (n : Nat) : Prop := 1 ≤ n ∧ n ≤ 16

/-- A size of 00_scope.md R7 lies in 1..4096. -/
abbrev SizeOk (n : Nat) : Prop := 1 ≤ n ∧ n ≤ 4096

/-- Every count and size lies in its range (00_scope.md R7), and GOLAY_E has twelve entries (10_state.md R51). What R7
asks of the entries of GOLAY_E stands in `Config.Legal`, beside the code it speaks of. -/
abbrev SizesLegal (c : Config) : Prop :=
  SizeOk c.sps ∧ CountOk c.nfir ∧ (∀ n ∈ c.firNtaps, SizeOk n) ∧ CountOk c.niir ∧ (∀ n ∈ c.iirN, SizeOk n) ∧
  CountOk c.npwm ∧ CountOk c.ncr ∧ CountOk c.nprbs ∧ CountOk c.ndcr ∧ CountOk c.nng ∧
  SizeOk c.pbufBytes ∧ SizeOk c.pmax ∧ CountOk c.npat ∧ c.golayE.length = 12

/-- PWM_B0: OPEN, "not in source" (00_scope.md R7, 91_not_in_source.md N3). No body: a free value (log 2). -/
opaque openPwmB0 : F32

/-- PWM_B1: OPEN (00_scope.md R7). A free value (log 2). -/
opaque openPwmB1 : F32

/-- PWM_B2: OPEN (00_scope.md R7). A free value (log 2). -/
opaque openPwmB2 : F32

/-- PWM_A1: OPEN (00_scope.md R7). A free value (log 2). -/
opaque openPwmA1 : F32

/-- PWM_A2: OPEN (00_scope.md R7). A free value (log 2). -/
opaque openPwmA2 : F32

/-- The DEFAULT encode table GE[0..11] (45_golay.md R240; from general knowledge there, log 3). -/
def defaultGolayE : List (BitVec 12) :=
  [0x8EB#12, 0x93E#12, 0xA97#12, 0xDC6#12, 0x367#12, 0x6CD#12, 0xD99#12, 0x3DA#12, 0x7B4#12, 0xF68#12, 0x63B#12, 0xC75#12]

/-- The spec's reference configuration DEFAULT (00_scope.md R7) with the given PWM coefficients. -/
def defaultWith (coef : PwmCoef) : Config where
  sps       := 10
  firNtaps  := [4, 81]
  iirN      := [3, 3]
  npwm      := 1
  pwmCoef   := coef
  ncr       := 1
  nprbs     := 2
  ndcr      := 2
  nng       := 1
  pbufBytes := 64
  pmax      := 64
  npat      := 2
  golayE    := defaultGolayE

/-- DEFAULT with the open PWM coefficients left open (00_scope.md R7, log 1, log 2). -/
def reference : Config := defaultWith ⟨openPwmB0, openPwmB1, openPwmB2, openPwmA1, openPwmA2⟩

end Config

/-- LOCK_COUNT, fixed at 18 (00_scope.md R7). -/
def lockCount : Nat := 18

/-- The identification constant ID (10_state.md R34). -/
def coreId : Word := 0x4D313707#32

end Sys2Proof
end

