-- ==== Sys2Proof/Machine/State.lean ====
section
/-! DEFINITION. The state of CORE: every register of 10_state.md, the two byte buffers, the parameters it was built
with, and what the host still does at the port. Plain data. -/

namespace Sys2Proof.Machine

/-- A byte buffer as (address, byte) pairs in one canonical form: addresses strictly rising and no listed byte equal
to `unlistedByte` (log 8). -/
abbrev Memory := List Host.Cell

/-- What an unlisted byte of a buffer reads as: the power-on value of INBUF[a] and OUTBUF[a] (10_state.md R52). -/
def unlistedByte : Byte := 0#8

/-- The canonical form of a buffer: addresses strictly rising, and no entry that an unlisted address would read as. -/
abbrev Memory.wf (m : Memory) : Prop :=
  m.Pairwise (fun c d => c.1 < d.1) ∧ ∀ c ∈ m, c.2 ≠ unlistedByte

/-- FIR[k] (10_state.md R35): TAP[0..N-1], and X[0..N-1] newest first (R36). -/
structure FirInst where
  taps : List F32
  hist : List F32
deriving DecidableEq, Repr

/-- IIR[k] (10_state.md R37): NUM[0..N-1], DEN[0..N-1], and W[1..N-1] newest first: W[i] is entry i-1 of `w`
(log 16). -/
structure IirInst where
  num : List F32
  den : List F32
  w   : List F32
deriving DecidableEq, Repr

/-- PWM[k] (10_state.md R39). Y1 and Y2 are unscaled outputs. -/
structure PwmInst where
  u1 : F32
  u2 : F32
  y1 : F32
  y2 : F32
deriving DecidableEq, Repr

/-- CR[k] (10_state.md R40). ENERGY entries and PREV are two's complement; CURSOR and SP are integers 0..SPS-1. -/
structure CrInst where
  energy : List (BitVec 32)
  prev   : BitVec 16
  cursor : Nat
  nsamp  : BitVec 32
  sp     : Nat
deriving DecidableEq, Repr

/-- PRBS[k] (10_state.md R50). -/
structure PrbsInst where
  lfsr   : BitVec 9
  scnt   : BitVec 8
  locked : Bool
deriving DecidableEq, Repr

/-- A pattern slot (10_state.md R52): PAT[s][0..PMAX-1] with true for keep, and PLEN[s]. -/
structure PatSlot where
  bits : List Bool
  plen : Nat
deriving DecidableEq, Repr

/-- DCR[k] (10_state.md R53). -/
structure DcrInst where
  alpha : F32
  u1    : F32
  y1    : F32
deriving DecidableEq, Repr

/-- NG[k] (10_state.md R58). -/
structure NgInst where
  thresh     : F32
  attack     : F32
  release    : F32
  holdtime   : F32
  sampletime : F32
  hold       : F32
  sg         : F32
deriving DecidableEq, Repr

/-- What the outside world does at CORE's port (log 4, log 5). -/
inductive HostEvent where
  /-- The host presents CMD and ARG (40_control.md R140). -/
  | command (c : Command)
  /-- The platform asserts the reset input (70_reset_and_hazards.md R360). -/
  | resetInput
deriving DecidableEq, Repr

/-- The state of CORE. `cfg` holds the parameters it was built with (00_scope.md R7, log 1); `issue` is the model's
own field, what the host still does at the port, in order (log 4); the rest are the registers of 10_state.md. -/
structure State where
  cfg      : Config
  issue    : List HostEvent
  res      : Word
  status   : Word
  faultCmd : Word
  faultArg : Word
  fir      : List FirInst
  iir      : List IirInst
  pwm      : List PwmInst
  cr       : List CrInst
  prbs     : List PrbsInst
  inbuf    : Memory
  outbuf   : Memory
  pat      : List PatSlot
  dcr      : List DcrInst
  ng       : List NgInst
deriving DecidableEq, Repr

/-- Why the machine stops with a fault. CORE never stops: a fault of 60_exceptions.md R331 is a next state ("Execution
is not halted"), so no constructor exists and no step ends here (log 15). Safe. -/
inductive Fault
deriving DecidableEq, Repr

/-- Why an instruction has no meaning in the model. -/
inductive Refusal where
  /-- Raised by a refused arm of `exec` only, for an instruction that has no meaning yet. No arm is refused, so no
  step ends here (log 15). Safe. -/
  | notModelled (mnemonic : String)
deriving DecidableEq, Repr

/-- How a meaning or a step ends. -/
abbrev Result := Host.Outcome State Fault Refusal

/-- FIR[k] at power-on, with N taps (10_state.md R35). -/
def FirInst.powerOn (n : Nat) : FirInst := ⟨List.replicate n 0#32, List.replicate n 0#32⟩

/-- IIR[k] at power-on, with length N (10_state.md R37). -/
def IirInst.powerOn (n : Nat) : IirInst :=
  ⟨List.replicate n 0#32, List.replicate n 0#32, List.replicate (n - 1) 0#32⟩

/-- PWM[k] at power-on (10_state.md R39). -/
def PwmInst.powerOn : PwmInst := ⟨0#32, 0#32, 0#32, 0#32⟩

/-- CR[k] at power-on (10_state.md R40). -/
def CrInst.powerOn (sps : Nat) : CrInst := ⟨List.replicate sps 0#32, 0#16, 0, 0#32, 0⟩

/-- PRBS[k] at power-on (10_state.md R50). -/
def PrbsInst.powerOn : PrbsInst := ⟨1#9, 0#8, false⟩

/-- A pattern slot at power-on (10_state.md R52). -/
def PatSlot.powerOn (pmax : Nat) : PatSlot := ⟨List.replicate pmax false, 0⟩

/-- DCR[k] at power-on (10_state.md R53). -/
def DcrInst.powerOn : DcrInst := ⟨0#32, 0#32, 0#32⟩

/-- NG[k] at power-on (10_state.md R58). -/
def NgInst.powerOn : NgInst := ⟨0#32, 0#32, 0#32, 0#32, 0#32, 0#32, 0#32⟩

/-- The machine built with the parameters `c`, right after power-on reset (70_reset_and_hazards.md R360). -/
def State.powerOn (c : Config) : State where
  cfg      := c
  issue    := []
  res      := 0#32
  status   := 0#32
  faultCmd := 0#32
  faultArg := 0#32
  fir      := c.firNtaps.map FirInst.powerOn
  iir      := c.iirN.map IirInst.powerOn
  pwm      := List.replicate c.npwm PwmInst.powerOn
  cr       := List.replicate c.ncr (CrInst.powerOn c.sps)
  prbs     := List.replicate c.nprbs PrbsInst.powerOn
  inbuf    := []
  outbuf   := []
  pat      := List.replicate c.npat (PatSlot.powerOn c.pmax)
  dcr      := List.replicate c.ndcr DcrInst.powerOn
  ng       := List.replicate c.nng NgInst.powerOn

/-- The machine right after power-on reset, in the spec's reference configuration DEFAULT (00_scope.md R7) with the
PWM coefficients open (log 1, log 2). -/
def State.reset : State := State.powerOn Config.reference

end Sys2Proof.Machine
end

