-- ==== Sys2Proof/Machine/Binary32.lean ====
section
/-! DEFINITION. The binary32 primitives of 00_scope.md R12 to R15, computed exactly on integers and rounded once.

Every finite binary32 number is an integer multiple of 2^-149, the smallest subnormal. `mag` and `val` give that
integer, so a sum is exact in Int, and a product is exact in units of 2^-298. `roundMag` rounds an exact magnitude
once, to nearest with ties to even. What the rules take from IEEE 754 without spelling it out is in log 9. -/

namespace Sys2Proof.Machine

/-- The sign bit. -/
def signBit (f : F32) : Bool := f.getLsbD 31

/-- The biased exponent field, bits 30:23. -/
def expField (f : F32) : Nat := f.toNat / 2 ^ 23 % 2 ^ 8

/-- The fraction field, bits 22:0. -/
def fracField (f : F32) : Nat := f.toNat % 2 ^ 23

/-- The pattern is a NaN. -/
def isNaN (f : F32) : Bool := expField f == 255 && fracField f != 0

/-- The pattern is plus or minus infinity. -/
def isInf (f : F32) : Bool := expField f == 255 && fracField f == 0

/-- The pattern is a finite number. -/
def isFinite (f : F32) : Bool := expField f != 255

/-- The canonical quiet NaN, every NaN result (00_scope.md R13). -/
def quietNaN : F32 := 0x7FC00000#32

/-- The magnitude in units of 2^-149. For an infinity it is 2^277, above every finite magnitude. -/
def mag (f : F32) : Nat :=
  if expField f = 0 then fracField f else (2 ^ 23 + fracField f) * 2 ^ (expField f - 1)

/-- The value in units of 2^-149, as an exact integer. -/
def val (f : F32) : Int := if signBit f then -(mag f : Int) else (mag f : Int)

/-- `p / 2^k` rounded to the nearest integer, ties to even (00_scope.md R13). -/
def nearestEven (p k : Nat) : Nat :=
  if 2 ^ k < 2 * (p % 2 ^ k) ∨ (2 * (p % 2 ^ k) = 2 ^ k ∧ p / 2 ^ k % 2 = 1) then p / 2 ^ k + 1 else p / 2 ^ k

/-- How many low bits of the magnitude `p`, given in units of 2^-(149+u), rounding drops: all but 24 significant bits,
and everything below 2^-149. -/
def dropBits (p u : Nat) : Nat := max u (Nat.log2 p - 23)

/-- The pattern (sign 0) of the magnitude `p * 2^-(149+u)` rounded once to nearest even; plus infinity on overflow
(00_scope.md R13). A 24-bit significand `q` with exponent `e` above the subnormal unit has the pattern
`e * 2^23 + q`: its leading bit carries into the exponent field. -/
def roundMag (p u : Nat) : F32 :=
  if (dropBits p u - u) * 2 ^ 23 + nearestEven p (dropBits p u) < 0x7F800000 then
    BitVec.ofNat 32 ((dropBits p u - u) * 2 ^ 23 + nearestEven p (dropBits p u))
  else 0x7F800000#32

/-- A pattern with the sign bit set as told; `f` has sign 0. -/
def withSign (neg : Bool) (f : F32) : F32 := if neg then f ||| 0x80000000#32 else f

/-- Flip the sign bit. -/
def fneg (f : F32) : F32 := f ^^^ 0x80000000#32

/-- The sum of two finite patterns: exact, then rounded once. An exact zero is -0.0 if both operands are -0.0 and +0.0
otherwise (00_scope.md R13, log 9). -/
def faddFinite (a b : F32) : F32 :=
  if val a + val b = 0 then withSign (signBit a && signBit b) 0#32
  else withSign (decide (val a + val b < 0)) (roundMag (val a + val b).natAbs 0)

/-- `fadd(a, b)` (00_scope.md R13). -/
def fadd (a b : F32) : F32 :=
  if isNaN a || isNaN b then quietNaN
  else if isInf a then (if isInf b && (signBit a != signBit b) then quietNaN else a)
  else if isInf b then b
  else faddFinite a b

/-- `fsub(a, b)` (00_scope.md R13): a + (-b). -/
def fsub (a b : F32) : F32 := fadd a (fneg b)

/-- `fmul(a, b)` (00_scope.md R13). -/
def fmul (a b : F32) : F32 :=
  if isNaN a || isNaN b then quietNaN
  else if isInf a || isInf b then
    (if mag a = 0 ∨ mag b = 0 then quietNaN else withSign (signBit a != signBit b) 0x7F800000#32)
  else withSign (signBit a != signBit b) (roundMag (mag a * mag b) 149)

/-- `flt(a, b)` (00_scope.md R14). -/
def flt (a b : F32) : Bool := !isNaN a && !isNaN b && decide (val a < val b)

/-- `fle(a, b)` (00_scope.md R14). -/
def fle (a b : F32) : Bool := !isNaN a && !isNaN b && decide (val a ≤ val b)

/-- `fge(a, b)` (00_scope.md R14). -/
def fge (a b : F32) : Bool := fle b a

/-- `f32_of_s16(i)` (00_scope.md R15): the pattern of the integer i. -/
def f32OfInt (i : Int) : F32 := withSign (decide (i < 0)) (roundMag (i.natAbs * 2 ^ 149) 0)

/-- The greatest sample. -/
def maxSample : Int := 32767

/-- The least sample. -/
def minSample : Int := -32768

/-- The value truncated toward zero, for a pattern that is no NaN. An infinity gives an integer far outside the sample
range. -/
def truncVal (f : F32) : Int :=
  if signBit f then -((mag f / 2 ^ 149 : Nat) : Int) else ((mag f / 2 ^ 149 : Nat) : Int)

/-- `cvt_s16(f)` (00_scope.md R15): NaN gives 0; otherwise truncate toward zero, then clamp to the sample range. -/
def cvtS16 (f : F32) : Int := if isNaN f then 0 else max minSample (min maxSample (truncVal f))

end Sys2Proof.Machine
end

