-- ==== Sys2Proof/Machine/Flags.lean ====
section
/-! DEFINITION. The flags of STATUS (10_state.md R33) and the cause codes (60_exceptions.md R332). STATUS is the only
flag register of CORE. -/

namespace Sys2Proof.Machine

/-- The causes of a fault (60_exceptions.md R332). NONE (0) is never raised and 7..15 are reserved. -/
inductive Cause where
  /-- The decoder: UNIT reserved or OP not assigned. -/
  | illegalOpcode
  /-- The decoder: RSV, or INST or IDX where the row gives 0, is not 0. -/
  | reservedField
  /-- A meaning: INST is not below the unit's count. -/
  | badInstance
  /-- A meaning: IDX is outside its range. -/
  | badIndex
  /-- PUNC.SETPLEN, PUNC.PUNCT, PUNC.DEPUNCT: a length in ARG is out of its domain. -/
  | badArgument
  /-- PUNC.PUNCT, PUNC.DEPUNCT: PLEN of the slot is 0. -/
  | badConfig
deriving DecidableEq, Repr

/-- The code of a cause (60_exceptions.md R332). -/
def causeCode : Cause → Nat
  | .illegalOpcode => 1
  | .reservedField => 2
  | .badInstance => 3
  | .badIndex => 4
  | .badArgument => 5
  | .badConfig => 6

/-- STATUS.ERR, bit 0 (10_state.md R33). -/
def errFlag (status : Word) : Bool := status.getLsbD 0

/-- STATUS.CAUSE, bits 7:4 (10_state.md R33). -/
def causeField (status : Word) : Nat := status.toNat / 2 ^ 4 % 2 ^ 4

/-- STATUS after a recorded fault: `(CAUSE << 4) | 1` (60_exceptions.md R333). The reserved bits 3:1 and 31:8 read 0
(10_state.md R33). -/
def faultStatus (c : Cause) : Word := BitVec.ofNat 32 (causeCode c * 2 ^ 4 + 1)

end Sys2Proof.Machine
end

