-- ==== Sys2Proof/Machine/Memory.lean ====
section
/-! DEFINITION. The byte and bit accesses of the puncture buffers (20_memory.md R92, R93). -/

namespace Sys2Proof.Machine

/-- `MemRead(buf, a, 1)` (20_memory.md R92). -/
def readByte : Memory → Nat → Byte
  | [], _ => unlistedByte
  | c :: m, a => if a = c.1 then c.2 else readByte m a

/-- Put a byte at the head of a canonical list, unless an unlisted address reads as that byte (log 8). -/
def listByte (a : Nat) (v : Byte) (m : Memory) : Memory := if v = unlistedByte then m else (a, v) :: m

/-- `MemWrite(buf, a, 1, v)` (20_memory.md R92), keeping the canonical form (log 8). -/
def writeByte : Memory → Nat → Byte → Memory
  | [], a, v => listByte a v []
  | c :: m, a, v =>
    if a < c.1 then listByte a v (c :: m)
    else if a = c.1 then listByte a v m
    else c :: writeByte m a v

/-- The mask of stream bit i in its byte: bit 7 - (i mod 8), the first stream bit highest (20_memory.md R93). -/
def streamMask (i : Nat) : Byte := 1#8 <<< (7 - i % 8)

/-- `GetBit(buf, i)` (20_memory.md R93). -/
def getBit (m : Memory) (i : Nat) : Bool := (readByte m (i / 8) &&& streamMask i) != 0#8

/-- `SetBit(buf, i, b)` (20_memory.md R93). -/
def setBit (m : Memory) (i : Nat) (b : Bool) : Memory :=
  writeByte m (i / 8)
    ((readByte m (i / 8) &&& ~~~ streamMask i) ||| (if b then streamMask i else 0#8))

end Sys2Proof.Machine
end

