-- ==== Sys2Proof/Machine/Operands.lean ====
section
/-! DEFINITION. The operand forms of ARG (00_scope.md R16) and the result forms of RES (00_scope.md R17). -/

namespace Sys2Proof.Machine

/-- Form S16: `s16(ARG)`, ARG[15:0] as a two's-complement integer. -/
def argS16 (arg : Word) : Int := (arg.setWidth 16).toInt

/-- Form F32: the whole pattern. -/
def argF32 (arg : Word) : F32 := arg

/-- Form BIT: ARG[0]. -/
def argBit (arg : Word) : Bool := arg.getLsbD 0

/-- Form BYTE: ARG[7:0]. -/
def argByte (arg : Word) : Byte := arg.setWidth 8

/-- Form U8: ARG[7:0] as an unsigned integer. -/
def argU8 (arg : Word) : Nat := arg.toNat % 2 ^ 8

/-- Form U12: ARG[11:0]. -/
def argU12 (arg : Word) : BitVec 12 := arg.setWidth 12

/-- Form U24: ARG[23:0]. -/
def argU24 (arg : Word) : BitVec 24 := arg.setWidth 24

/-- Form LEN: ARG[15:0] as an unsigned integer. -/
def argLen (arg : Word) : Nat := arg.toNat % 2 ^ 16

/-- Form LEN2, lo: ARG[15:0] as an unsigned integer. -/
def argLo (arg : Word) : Nat := arg.toNat % 2 ^ 16

/-- Form LEN2, hi: ARG[31:16] as an unsigned integer. -/
def argHi (arg : Word) : Nat := arg.toNat / 2 ^ 16

/-- A sample result: `sext_32(bits_16(v))` (00_scope.md R17). -/
def resSample (v : Int) : Word := (BitVec.ofInt 16 v).signExtend 32

/-- An unsigned result: `zext_32(v)` (00_scope.md R17). -/
def resNat (v : Nat) : Word := BitVec.ofNat 32 v

/-- A one-bit result: `zext_32(b)` (00_scope.md R17). -/
def resBit (b : Bool) : Word := if b then 1#32 else 0#32

/-- The result of a command that has none (00_scope.md R17). -/
def resNone : Word := 0#32

/-- `wrap_32(i)` as a 32-bit pattern (00_scope.md R10). -/
def wrap32 (i : Int) : BitVec 32 := BitVec.ofInt 32 i

/-- `wrap_16(i)` (00_scope.md R10). -/
def wrap16 (i : Int) : Int := (BitVec.ofInt 16 i).toInt

end Sys2Proof.Machine
end

