-- ==== Sys2Proof/Machine/Ops.lean ====
section
/-! DEFINITION. The shared operations over the state: reading and writing one register bank entry, completing a
command, taking a fault and clearing its record, the checks before a command runs, and power-on reset. -/

namespace Sys2Proof.Machine

namespace State

/-! ### Reading a bank entry. An entry that the bank does not have reads as its power-on value (log 12). -/

def firAt (s : State) (k : Nat) : FirInst := s.fir.getD k (FirInst.powerOn 0)
def iirAt (s : State) (k : Nat) : IirInst := s.iir.getD k (IirInst.powerOn 0)
def pwmAt (s : State) (k : Nat) : PwmInst := s.pwm.getD k PwmInst.powerOn
def crAt (s : State) (k : Nat) : CrInst := s.cr.getD k (CrInst.powerOn 0)
def prbsAt (s : State) (k : Nat) : PrbsInst := s.prbs.getD k PrbsInst.powerOn
def slotAt (s : State) (k : Nat) : PatSlot := s.pat.getD k (PatSlot.powerOn 0)
def dcrAt (s : State) (k : Nat) : DcrInst := s.dcr.getD k DcrInst.powerOn
def ngAt (s : State) (k : Nat) : NgInst := s.ng.getD k NgInst.powerOn

/-! ### Writing a bank entry, a buffer, or RES. -/

def setFir (s : State) (k : Nat) (f : FirInst) : State := { s with fir := s.fir.set k f }
def setIir (s : State) (k : Nat) (f : IirInst) : State := { s with iir := s.iir.set k f }
def setPwm (s : State) (k : Nat) (p : PwmInst) : State := { s with pwm := s.pwm.set k p }
def setCr (s : State) (k : Nat) (c : CrInst) : State := { s with cr := s.cr.set k c }
def setPrbs (s : State) (k : Nat) (p : PrbsInst) : State := { s with prbs := s.prbs.set k p }
def setSlot (s : State) (k : Nat) (p : PatSlot) : State := { s with pat := s.pat.set k p }
def setDcr (s : State) (k : Nat) (d : DcrInst) : State := { s with dcr := s.dcr.set k d }
def setNg (s : State) (k : Nat) (g : NgInst) : State := { s with ng := s.ng.set k g }
def setInbuf (s : State) (m : Memory) : State := { s with inbuf := m }
def setOutbuf (s : State) (m : Memory) : State := { s with outbuf := m }

/-- `RES <- r` (00_scope.md R11, R17). -/
def setRes (s : State) (r : Word) : State := { s with res := r }

/-- `record(c, CMD, ARG)` (60_exceptions.md R333): keep the first fault. -/
def recordFault (s : State) (c : Cause) (words : Command) : State :=
  if errFlag s.status then s
  else { s with status := faultStatus c, faultCmd := words.cmd, faultArg := words.arg }

/-- TAKING A FAULT (60_exceptions.md R331): record it, RES becomes 0, nothing else changes, and the next command runs
normally. CORE has no program counter, mode, stack or vector to save or change (R338). -/
def takeFault (s : State) (c : Cause) (words : Command) : State := (s.recordFault c words).setRes 0#32

/-- Clear the fault record and so re-arm it (40_control.md R144, 60_exceptions.md R339). CORE has no return from a
fault, because nothing was entered. -/
def clearFault (s : State) : State := { s with status := 0#32, faultCmd := 0#32, faultArg := 0#32 }

/-- The host's event at the head of `issue` is taken. -/
def takeEvent (s : State) : State := { s with issue := s.issue.tail }

/-- Power-on reset by the reset input (70_reset_and_hazards.md R360): every register takes its power-on value, the
parameters stay, and the host goes on with what it still does (log 5). -/
def powerOnReset (s : State) : State := { State.powerOn s.cfg with issue := s.issue }

end State

/-- The cause of the first check that fails (60_exceptions.md R334); `none` if every check passes. -/
def firstFailing : List (Bool × Cause) → Option Cause
  | [] => none
  | c :: cs => if c.1 then firstFailing cs else some c.2

/-- Check 4 of 60_exceptions.md R334: INST is below the unit's count. -/
def instCheck (k count : Nat) : Bool × Cause := (decide (k < count), .badInstance)

/-- Check 5 of 60_exceptions.md R334: IDX is below its bound. -/
def idxCheck (n bound : Nat) : Bool × Cause := (decide (n < bound), .badIndex)

/-- One command (40_control.md R140): its checks in order, the fault of the first that fails, or else its effect. The
words recorded are those of the command (log 6). -/
def guarded (i : Instr) (checks : List (Bool × Cause)) (s effect : State) : Result :=
  match firstFailing checks with
  | some c => .next (s.takeFault c (encode i))
  | none => .next effect

/-- The cause of a command word that the decoder rejects (60_exceptions.md R334, checks 1 to 3). -/
def decodeCause : DecodeError → Cause
  | .illegalOpcode => .illegalOpcode
  | .reservedField => .reservedField

/-- A rejected command faults (30_encoding.md R115). -/
def rejectCommand (e : DecodeError) (words : Command) (s : State) : Result :=
  .next (s.takeFault (decodeCause e) words)

end Sys2Proof.Machine
end

