-- ==== Sys2Proof/Machine/Resets.lean ====
section
/-! DEFINITION. What the RESET command of each unit does to one entry of the unit's bank: stream state only, never
configuration (10_state.md R62, 70_reset_and_hazards.md R361). CTRL.RSTALL does the same to every entry. -/

namespace Sys2Proof.Machine

/-- FIR.RESET's effect on one filter: the history (41_fir_iir.md R161). -/
def FirInst.clear (f : FirInst) : FirInst := { f with hist := f.hist.map fun _ => 0#32 }

/-- IIR.RESET's effect on one filter: the history (41_fir_iir.md R171). -/
def IirInst.clear (f : IirInst) : IirInst := { f with w := f.w.map fun _ => 0#32 }

/-- PWM.RESET's effect (42_pwm.md R191). -/
def PwmInst.clear (_ : PwmInst) : PwmInst := ⟨0#32, 0#32, 0#32, 0#32⟩

/-- CR.RESET's effect (43_clock_recovery.md R200). -/
def CrInst.clear (c : CrInst) : CrInst := ⟨c.energy.map fun _ => 0#32, 0#16, 0, 0#32, 0⟩

/-- PRBS.RESET's effect (44_prbs9.md R222). -/
def PrbsInst.clear (_ : PrbsInst) : PrbsInst := ⟨1#9, 0#8, false⟩

/-- DCR.RESET's effect: ALPHA is configuration and stays (47_dsp_conditioning.md R290). -/
def DcrInst.clear (d : DcrInst) : DcrInst := { d with u1 := 0#32, y1 := 0#32 }

/-- NG.RESET's effect: the five configuration registers stay (47_dsp_conditioning.md R300). -/
def NgInst.clear (g : NgInst) : NgInst := { g with hold := 0#32, sg := 0#32 }

end Sys2Proof.Machine
end

