-- ==== Sys2Proof/Machine/ClockRecovery.lean ====
section
/-! DEFINITION. The clock-recovery correlator (43_clock_recovery.md R200 to R208). All arithmetic is on integers with
the widths of 10_state.md R40. -/

namespace Sys2Proof.Machine

/-- The delta of CR.SAMPLE: `x - p`, negated if `x + p < 0` (43_clock_recovery.md R201). -/
def crDelta (x p : Int) : Int := if x + p < 0 then -(x - p) else x - p

/-- ENERGY with a delta added to the bin at CURSOR, wrapping to 32 bits (43_clock_recovery.md R201). -/
def crAccumulate (c : CrInst) (x : Int) : List (BitVec 32) :=
  c.energy.set c.cursor (wrap32 ((c.energy.getD c.cursor 0#32).toInt + crDelta x c.prev.toInt))

/-- CR.SAMPLE's effect on one instance with SPS samples per symbol (43_clock_recovery.md R201). -/
def crTake (sps : Nat) (c : CrInst) (x : Int) : CrInst :=
  { c with
    energy := crAccumulate c x
    prev := BitVec.ofInt 16 x
    cursor := (c.cursor + 1) % sps
    nsamp := c.nsamp + 1#32 }

/-- The scan of CR.UPDATE from index i on (43_clock_recovery.md R202): the first index of negative energy after one of
positive energy, and 0 if there is none. `pos` says that a positive one was met. -/
def crossing (pos : Bool) (i : Nat) : List (BitVec 32) → Nat
  | [] => 0
  | e :: es =>
    if pos = false ∧ 0 < e.toInt then crossing true (i + 1) es
    else if pos = true ∧ e.toInt < 0 then i
    else crossing pos (i + 1) es

/-- The new sampling point: one before the crossing, and SPS - 1 if no crossing was found (43_clock_recovery.md
R202). -/
def newSp (sps idx : Nat) : Nat := if idx = 0 then sps - 1 else idx - 1

/-- CR.UPDATE's effect when NSAMP is not 0 (43_clock_recovery.md R202): CURSOR and PREV stay. -/
def crEstimate (sps : Nat) (c : CrInst) : CrInst :=
  { c with
    sp := newSp sps (crossing false 0 c.energy)
    energy := c.energy.map fun _ => 0#32
    nsamp := 0#32 }

/-- CR.UPDATE's effect on one instance: nothing when NSAMP is 0 (43_clock_recovery.md R202). -/
def crUpdated (sps : Nat) (c : CrInst) : CrInst := if c.nsamp = 0#32 then c else crEstimate sps c

/-- CR.RESET (43_clock_recovery.md R200). -/
def execCrReset (k : Nat) (arg : Word) (s : State) : Result :=
  guarded (.crReset k arg) [instCheck k s.cfg.ncr] s ((s.setCr k (s.crAt k).clear).setRes resNone)

/-- CR.SAMPLE (43_clock_recovery.md R201). -/
def execCrSample (k : Nat) (arg : Word) (s : State) : Result :=
  guarded (.crSample k arg) [instCheck k s.cfg.ncr] s
    ((s.setCr k (crTake s.cfg.sps (s.crAt k) (argS16 arg))).setRes resNone)

/-- CR.UPDATE (43_clock_recovery.md R202). -/
def execCrUpdate (k : Nat) (arg : Word) (s : State) : Result :=
  guarded (.crUpdate k arg) [instCheck k s.cfg.ncr] s
    ((s.setCr k (crUpdated s.cfg.sps (s.crAt k))).setRes resNone)

/-- CR.GETSP (43_clock_recovery.md R204). -/
def execCrGetsp (k : Nat) (arg : Word) (s : State) : Result :=
  guarded (.crGetsp k arg) [instCheck k s.cfg.ncr] s (s.setRes (resNat (s.crAt k).sp))

/-- CR.RDENERGY (43_clock_recovery.md R205). -/
def execCrRdenergy (k n : Nat) (arg : Word) (s : State) : Result :=
  guarded (.crRdenergy k n arg) [instCheck k s.cfg.ncr, idxCheck n s.cfg.sps] s
    (s.setRes ((s.crAt k).energy.getD n 0#32))

/-- CR.RDCOUNT (43_clock_recovery.md R206). -/
def execCrRdcount (k : Nat) (arg : Word) (s : State) : Result :=
  guarded (.crRdcount k arg) [instCheck k s.cfg.ncr] s (s.setRes (s.crAt k).nsamp)

/-- CR.RDCURSOR (43_clock_recovery.md R207). -/
def execCrRdcursor (k : Nat) (arg : Word) (s : State) : Result :=
  guarded (.crRdcursor k arg) [instCheck k s.cfg.ncr] s (s.setRes (resNat (s.crAt k).cursor))

/-- CR.RDPREV (43_clock_recovery.md R208). -/
def execCrRdprev (k : Nat) (arg : Word) (s : State) : Result :=
  guarded (.crRdprev k arg) [instCheck k s.cfg.ncr] s (s.setRes (resSample (s.crAt k).prev.toInt))

end Sys2Proof.Machine
end

