-- ==== Sys2Proof/Machine/Conv.lean ====
section
/-! DEFINITION. Phase inversion and format conversion (47_dsp_conditioning.md R310 to R314): pure functions of ARG. -/

namespace Sys2Proof.Machine

/-- `x + 32768` for a sample x, an integer in 0..65535 (47_dsp_conditioning.md R311, R312). -/
def biased (x : Int) : Nat := (x + 32768).toNat

/-- CONV.NEG (47_dsp_conditioning.md R310): -(-32768) wraps to -32768. -/
def execConvNeg (arg : Word) (s : State) : Result :=
  guarded (.convNeg arg) [] s (s.setRes (resSample (wrap16 (-(argS16 arg)))))

/-- CONV.S16TOU12 (47_dsp_conditioning.md R311). -/
def execConvS16tou12 (arg : Word) (s : State) : Result :=
  guarded (.convS16tou12 arg) [] s (s.setRes (resNat (biased (argS16 arg) / 2 ^ 4)))

/-- CONV.S16TOU8 (47_dsp_conditioning.md R312). -/
def execConvS16tou8 (arg : Word) (s : State) : Result :=
  guarded (.convS16tou8 arg) [] s (s.setRes (resNat (biased (argS16 arg) / 2 ^ 8)))

/-- CONV.U12TOS16 (47_dsp_conditioning.md R313). -/
def execConvU12tos16 (arg : Word) (s : State) : Result :=
  guarded (.convU12tos16 arg) [] s (s.setRes (resSample (((argU12 arg).toNat * 2 ^ 4 : Nat) - 32768)))

/-- CONV.U8TOS16 (47_dsp_conditioning.md R314). -/
def execConvU8tos16 (arg : Word) (s : State) : Result :=
  guarded (.convU8tos16 arg) [] s (s.setRes (resSample ((argU8 arg * 2 ^ 8 : Nat) - 32768)))

end Sys2Proof.Machine
end

