-- ==== Sys2Proof/Machine/Ctrl.lean ====
section
/-! DEFINITION. The CTRL unit (40_control.md R141 to R148). -/

namespace Sys2Proof.Machine

/-- Every stream of every unit reset (40_control.md R142). -/
def State.clearStreams (s : State) : State :=
  { s with
    fir := s.fir.map FirInst.clear, iir := s.iir.map IirInst.clear, pwm := s.pwm.map PwmInst.clear,
    cr := s.cr.map CrInst.clear, prbs := s.prbs.map PrbsInst.clear, dcr := s.dcr.map DcrInst.clear,
    ng := s.ng.map NgInst.clear }

/-- P[IDX], the parameters CTRL.RDPARAM reads, in the order of 40_control.md R146. -/
def paramList (c : Config) : List Nat :=
  [c.sps, c.nfir, c.niir, c.npwm, c.ncr, c.nprbs, c.ndcr, c.nng, c.pbufBytes, c.pmax, c.npat, lockCount]

/-- CTRL.NOP (40_control.md R141). -/
def execCtrlNop (arg : Word) (s : State) : Result := guarded (.ctrlNop arg) [] s (s.setRes resNone)

/-- CTRL.RSTALL (40_control.md R142): the record, the configuration and the PUNC buffers stay. -/
def execCtrlRstall (arg : Word) (s : State) : Result :=
  guarded (.ctrlRstall arg) [] s (s.clearStreams.setRes resNone)

/-- CTRL.RDSTATUS (40_control.md R143). -/
def execCtrlRdstatus (arg : Word) (s : State) : Result := guarded (.ctrlRdstatus arg) [] s (s.setRes s.status)

/-- CTRL.CLRERR (40_control.md R144). -/
def execCtrlClrerr (arg : Word) (s : State) : Result :=
  guarded (.ctrlClrerr arg) [] s (s.clearFault.setRes resNone)

/-- CTRL.RDID (40_control.md R145). -/
def execCtrlRdid (arg : Word) (s : State) : Result := guarded (.ctrlRdid arg) [] s (s.setRes coreId)

/-- CTRL.RDPARAM (40_control.md R146): BAD_INDEX if IDX > 11. -/
def execCtrlRdparam (n : Nat) (arg : Word) (s : State) : Result :=
  guarded (.ctrlRdparam n arg) [idxCheck n 12] s (s.setRes (resNat ((paramList s.cfg).getD n 0)))

/-- CTRL.RDFCMD (40_control.md R147). -/
def execCtrlRdfcmd (arg : Word) (s : State) : Result := guarded (.ctrlRdfcmd arg) [] s (s.setRes s.faultCmd)

/-- CTRL.RDFARG (40_control.md R148). -/
def execCtrlRdfarg (arg : Word) (s : State) : Result := guarded (.ctrlRdfarg arg) [] s (s.setRes s.faultArg)

end Sys2Proof.Machine
end

