-- ==== Sys2Proof/Machine/Dcr.lean ====
section
/-! DEFINITION. DC removal (47_dsp_conditioning.md R290 to R294). -/

namespace Sys2Proof.Machine

/-- `y[k] = u[k] - u[k-1] + alpha*y[k-1]`, the difference first, then the feedback (47_dsp_conditioning.md R292). -/
def dcrY (d : DcrInst) (u : F32) : F32 := fadd (fsub u d.u1) (fmul d.alpha d.y1)

/-- The instance after DCR.STEP with input u (47_dsp_conditioning.md R292). -/
def dcrPush (d : DcrInst) (u : F32) : DcrInst := { d with u1 := u, y1 := dcrY d u }

/-- U1, Y1 (47_dsp_conditioning.md R294). -/
def dcrRegs (d : DcrInst) : List F32 := [d.u1, d.y1]

/-- DCR.RESET (47_dsp_conditioning.md R290). -/
def execDcrReset (k : Nat) (arg : Word) (s : State) : Result :=
  guarded (.dcrReset k arg) [instCheck k s.cfg.ndcr] s ((s.setDcr k (s.dcrAt k).clear).setRes resNone)

/-- DCR.SETALPHA (47_dsp_conditioning.md R291). -/
def execDcrSetalpha (k : Nat) (arg : Word) (s : State) : Result :=
  guarded (.dcrSetalpha k arg) [instCheck k s.cfg.ndcr] s
    ((s.setDcr k { s.dcrAt k with alpha := argF32 arg }).setRes resNone)

/-- DCR.STEP (47_dsp_conditioning.md R292). -/
def execDcrStep (k : Nat) (arg : Word) (s : State) : Result :=
  guarded (.dcrStep k arg) [instCheck k s.cfg.ndcr] s
    ((s.setDcr k (dcrPush (s.dcrAt k) (f32OfInt (argS16 arg)))).setRes
      (resSample (cvtS16 (dcrY (s.dcrAt k) (f32OfInt (argS16 arg))))))

/-- DCR.RDALPHA (47_dsp_conditioning.md R293). -/
def execDcrRdalpha (k : Nat) (arg : Word) (s : State) : Result :=
  guarded (.dcrRdalpha k arg) [instCheck k s.cfg.ndcr] s (s.setRes (s.dcrAt k).alpha)

/-- DCR.RDSTATE (47_dsp_conditioning.md R294). -/
def execDcrRdstate (k n : Nat) (arg : Word) (s : State) : Result :=
  guarded (.dcrRdstate k n arg) [instCheck k s.cfg.ndcr, idxCheck n 2] s
    (s.setRes ((dcrRegs (s.dcrAt k)).getD n 0#32))

end Sys2Proof.Machine
end

