-- ==== Sys2Proof/Machine/Fir.lean ====
section
/-! DEFINITION. The FIR filter bank (41_fir_iir.md R160 to R168). -/

namespace Sys2Proof.Machine

/-- The history of N words with a new newest one: the oldest leaves (41_fir_iir.md R163, R170). -/
def pushHist (x : F32) (hist : List F32) : List F32 := (x :: hist).take hist.length

/-- `acc <- fadd(acc, fmul(c[i], h[i]))` for the indices of both lists from 0 upward (41_fir_iir.md R163, R170). -/
def macFrom (acc : F32) : List F32 → List F32 → F32
  | c :: cs, h :: hs => macFrom (fadd acc (fmul c h)) cs hs
  | _, _ => acc

/-- The filter after `fir_step` with input x: its history is shifted (41_fir_iir.md R163). -/
def firPush (f : FirInst) (x : F32) : FirInst := { f with hist := pushHist x f.hist }

/-- What `fir_step` returns with input x (41_fir_iir.md R163). -/
def firOut (f : FirInst) (x : F32) : F32 := macFrom 0#32 f.taps (pushHist x f.hist)

/-- FIR.RESET (41_fir_iir.md R161). -/
def execFirReset (k : Nat) (arg : Word) (s : State) : Result :=
  guarded (.firReset k arg) [instCheck k s.cfg.nfir] s ((s.setFir k (s.firAt k).clear).setRes resNone)

/-- FIR.SETTAP (41_fir_iir.md R162). -/
def execFirSettap (k n : Nat) (arg : Word) (s : State) : Result :=
  guarded (.firSettap k n arg) [instCheck k s.cfg.nfir, idxCheck n (s.cfg.firN k)] s
    ((s.setFir k { s.firAt k with taps := (s.firAt k).taps.set n (argF32 arg) }).setRes resNone)

/-- FIR.STEP (41_fir_iir.md R164). -/
def execFirStep (k : Nat) (arg : Word) (s : State) : Result :=
  guarded (.firStep k arg) [instCheck k s.cfg.nfir] s
    ((s.setFir k (firPush (s.firAt k) (f32OfInt (argS16 arg)))).setRes
      (resSample (cvtS16 (firOut (s.firAt k) (f32OfInt (argS16 arg))))))

/-- FIR.STEPF (41_fir_iir.md R165). -/
def execFirStepf (k : Nat) (arg : Word) (s : State) : Result :=
  guarded (.firStepf k arg) [instCheck k s.cfg.nfir] s
    ((s.setFir k (firPush (s.firAt k) (argF32 arg))).setRes (firOut (s.firAt k) (argF32 arg)))

/-- FIR.RDTAP (41_fir_iir.md R166). -/
def execFirRdtap (k n : Nat) (arg : Word) (s : State) : Result :=
  guarded (.firRdtap k n arg) [instCheck k s.cfg.nfir, idxCheck n (s.cfg.firN k)] s
    (s.setRes ((s.firAt k).taps.getD n 0#32))

/-- FIR.RDHIST (41_fir_iir.md R167). -/
def execFirRdhist (k n : Nat) (arg : Word) (s : State) : Result :=
  guarded (.firRdhist k n arg) [instCheck k s.cfg.nfir, idxCheck n (s.cfg.firN k)] s
    (s.setRes ((s.firAt k).hist.getD n 0#32))

/-- FIR.RDN (41_fir_iir.md R168). -/
def execFirRdn (k : Nat) (arg : Word) (s : State) : Result :=
  guarded (.firRdn k arg) [instCheck k s.cfg.nfir] s (s.setRes (resNat (s.cfg.firN k)))

end Sys2Proof.Machine
end

