-- ==== Sys2Proof/Machine/Golay.lean ====
section
/-! DEFINITION. The Golay(24,12) encoder and decoder (45_golay.md R240 to R246), over any encode table GE of twelve
12-bit entries (GOLAY_E, log 3). -/

namespace Sys2Proof.Machine

/-- XOR of the table entries `t[j]`, counted from index j, whose bit j is set in v (45_golay.md R242, R244). -/
def xorRows (v : BitVec 12) (j : Nat) : List (BitVec 12) → BitVec 12
  | [] => 0#12
  | row :: rows => (if v.getLsbD j then row else 0#12) ^^^ xorRows v (j + 1) rows

/-- `csum(v)`: the 12-bit parity (45_golay.md R242). -/
def csum (ge : List (BitVec 12)) (v : BitVec 12) : BitVec 12 := xorRows v 0 ge

/-- Column i of a table: bit j is bit i of entry j (45_golay.md R241). -/
def column (i : Nat) (j : Nat) : List (BitVec 12) → BitVec 12
  | [] => 0#12
  | row :: rows => (if row.getLsbD i then 1#12 <<< j else 0#12) ||| column i (j + 1) rows

/-- GD: the transpose of GE (45_golay.md R241). -/
def decodeTable (ge : List (BitVec 12)) : List (BitVec 12) := (List.range 12).map fun i => column i 0 ge

/-- `mulD(s)`: the inverse syndrome (45_golay.md R244). -/
def mulD (ge : List (BitVec 12)) (s : BitVec 12) : BitVec 12 := xorRows s 0 (decodeTable ge)

/-- `wt(v)`: the number of set bits among bits 0 .. n-1 (00_scope.md R10). -/
def weight {n : Nat} (v : BitVec n) : Nat := (List.range n).countP fun j => v.getLsbD j

/-- The first index j, counted from j, whose entry leaves weight at most 2 when XORed into s, with what it leaves
(45_golay.md R244, stages 2 and 4). -/
def findRow (s : BitVec 12) (j : Nat) : List (BitVec 12) → Option (Nat × BitVec 12)
  | [] => none
  | row :: rows => if weight (s ^^^ row) ≤ 2 then some (j, s ^^^ row) else findRow s (j + 1) rows

/-- The 24-bit mask with the given data half and parity half (45_golay.md R244: data errors in bits 23:12). -/
def maskOf (dataErr parityErr : BitVec 12) : BitVec 24 := dataErr ++ parityErr

/-- Stages 3 to 5 of `detect` for the inverse syndrome (45_golay.md R244). -/
def detectData (ge : List (BitVec 12)) (inv : BitVec 12) : Option (BitVec 24) :=
  if weight inv ≤ 3 then some (maskOf inv 0#12)
  else
    match findRow inv 0 (decodeTable ge) with
    | some (i, t) => some (maskOf t (1#12 <<< i))
    | none => none

/-- `detect` for a syndrome (45_golay.md R244); none is the sentinel. -/
def detectSyndrome (ge : List (BitVec 12)) (s : BitVec 12) : Option (BitVec 24) :=
  if weight s ≤ 3 then some (maskOf 0#12 s)
  else
    match findRow s 0 ge with
    | some (j, t) => some (maskOf (1#12 <<< j) t)
    | none => detectData ge (mulD ge s)

/-- The data half c[23:12] of a word (20_memory.md R95). -/
def dataHalf (c : BitVec 24) : BitVec 12 := c.extractLsb' 12 12

/-- The parity half c[11:0] of a word (20_memory.md R95). -/
def parityHalf (c : BitVec 24) : BitVec 12 := c.extractLsb' 0 12

/-- The syndrome of a word: its parity XOR the checksum of its data (45_golay.md R244). -/
def syndrome (ge : List (BitVec 12)) (c : BitVec 24) : BitVec 12 := parityHalf c ^^^ csum ge (dataHalf c)

/-- `detect(c)` (45_golay.md R244); none is the sentinel 0xFFFFFFFF. -/
def detect (ge : List (BitVec 12)) (c : BitVec 24) : Option (BitVec 24) := detectSyndrome ge (syndrome ge c)

/-- The codeword of v: data in bits 23:12, parity in bits 11:0 (45_golay.md R243). -/
def codeword (ge : List (BitVec 12)) (v : BitVec 12) : BitVec 24 := v ++ csum ge v

/-- The uncorrectable sentinel (45_golay.md R244). -/
def sentinel : Word := 0xFFFFFFFF#32

/-- The result word of GOLAY.DETECT (45_golay.md R245). -/
def detectWord (m : Option (BitVec 24)) : Word := (m.map fun e => e.setWidth 32).getD sentinel

/-- The result word of GOLAY.DECODE for the received word c (45_golay.md R246). -/
def decodeWord (c : BitVec 24) (m : Option (BitVec 24)) : Word :=
  (m.map fun e => (dataHalf (c ^^^ e)).setWidth 32).getD sentinel

/-- GOLAY.CSUM (45_golay.md R242). -/
def execGolayCsum (arg : Word) (s : State) : Result :=
  guarded (.golayCsum arg) [] s (s.setRes ((csum s.cfg.golayE (argU12 arg)).setWidth 32))

/-- GOLAY.ENC (45_golay.md R243). -/
def execGolayEnc (arg : Word) (s : State) : Result :=
  guarded (.golayEnc arg) [] s (s.setRes ((codeword s.cfg.golayE (argU12 arg)).setWidth 32))

/-- GOLAY.DETECT (45_golay.md R245). -/
def execGolayDetect (arg : Word) (s : State) : Result :=
  guarded (.golayDetect arg) [] s (s.setRes (detectWord (detect s.cfg.golayE (argU24 arg))))

/-- GOLAY.DECODE (45_golay.md R246). -/
def execGolayDecode (arg : Word) (s : State) : Result :=
  guarded (.golayDecode arg) [] s (s.setRes (decodeWord (argU24 arg) (detect s.cfg.golayE (argU24 arg))))

end Sys2Proof.Machine
end

