-- ==== Sys2Proof/Machine/Iir.lean ====
section
/-! DEFINITION. The IIR filter bank (41_fir_iir.md R169 to R179). W[i] is entry i-1 of `w` (log 16). -/

namespace Sys2Proof.Machine

/-- `an`: the numerator accumulator over i = 1 .. N-1 (41_fir_iir.md R170). -/
def iirAccNum (f : IirInst) : F32 := macFrom 0#32 f.num.tail f.w

/-- `ad`, accDen: the denominator accumulator over i = 1 .. N-1; DEN[0] is not read (41_fir_iir.md R170). -/
def iirAccDen (f : IirInst) : F32 := macFrom 0#32 f.den.tail f.w

/-- `w <- fsub(x, ad)` (41_fir_iir.md R170). -/
def iirNewW (f : IirInst) (x : F32) : F32 := fsub x (iirAccDen f)

/-- What `iir_step` returns with input x: `fadd(an, fmul(NUM[0], w))` (41_fir_iir.md R170). -/
def iirOut (f : IirInst) (x : F32) : F32 := fadd (iirAccNum f) (fmul (f.num.getD 0 0#32) (iirNewW f x))

/-- The filter after `iir_step` with input x (41_fir_iir.md R170). -/
def iirPush (f : IirInst) (x : F32) : IirInst := { f with w := pushHist (iirNewW f x) f.w }

/-- IIR.RESET (41_fir_iir.md R171). -/
def execIirReset (k : Nat) (arg : Word) (s : State) : Result :=
  guarded (.iirReset k arg) [instCheck k s.cfg.niir] s ((s.setIir k (s.iirAt k).clear).setRes resNone)

/-- IIR.SETNUM (41_fir_iir.md R172). -/
def execIirSetnum (k n : Nat) (arg : Word) (s : State) : Result :=
  guarded (.iirSetnum k n arg) [instCheck k s.cfg.niir, idxCheck n (s.cfg.iirLen k)] s
    ((s.setIir k { s.iirAt k with num := (s.iirAt k).num.set n (argF32 arg) }).setRes resNone)

/-- IIR.SETDEN (41_fir_iir.md R173). -/
def execIirSetden (k n : Nat) (arg : Word) (s : State) : Result :=
  guarded (.iirSetden k n arg) [instCheck k s.cfg.niir, idxCheck n (s.cfg.iirLen k)] s
    ((s.setIir k { s.iirAt k with den := (s.iirAt k).den.set n (argF32 arg) }).setRes resNone)

/-- IIR.STEP (41_fir_iir.md R174). -/
def execIirStep (k : Nat) (arg : Word) (s : State) : Result :=
  guarded (.iirStep k arg) [instCheck k s.cfg.niir] s
    ((s.setIir k (iirPush (s.iirAt k) (f32OfInt (argS16 arg)))).setRes
      (resSample (cvtS16 (iirOut (s.iirAt k) (f32OfInt (argS16 arg))))))

/-- IIR.STEPF (41_fir_iir.md R175). -/
def execIirStepf (k : Nat) (arg : Word) (s : State) : Result :=
  guarded (.iirStepf k arg) [instCheck k s.cfg.niir] s
    ((s.setIir k (iirPush (s.iirAt k) (argF32 arg))).setRes (iirOut (s.iirAt k) (argF32 arg)))

/-- IIR.RDNUM (41_fir_iir.md R176). -/
def execIirRdnum (k n : Nat) (arg : Word) (s : State) : Result :=
  guarded (.iirRdnum k n arg) [instCheck k s.cfg.niir, idxCheck n (s.cfg.iirLen k)] s
    (s.setRes ((s.iirAt k).num.getD n 0#32))

/-- IIR.RDDEN (41_fir_iir.md R177). -/
def execIirRdden (k n : Nat) (arg : Word) (s : State) : Result :=
  guarded (.iirRdden k n arg) [instCheck k s.cfg.niir, idxCheck n (s.cfg.iirLen k)] s
    (s.setRes ((s.iirAt k).den.getD n 0#32))

/-- Check 5 of 60_exceptions.md R334 for IIR.RDHIST: 1 <= i <= N-1 (41_fir_iir.md R178). -/
def iirHistCheck (n len : Nat) : Bool × Cause := (decide (n ≠ 0 ∧ n < len), .badIndex)

/-- IIR.RDHIST (41_fir_iir.md R178). -/
def execIirRdhist (k n : Nat) (arg : Word) (s : State) : Result :=
  guarded (.iirRdhist k n arg) [instCheck k s.cfg.niir, iirHistCheck n (s.cfg.iirLen k)] s
    (s.setRes ((s.iirAt k).w.getD (n - 1) 0#32))

/-- IIR.RDN (41_fir_iir.md R179). -/
def execIirRdn (k : Nat) (arg : Word) (s : State) : Result :=
  guarded (.iirRdn k arg) [instCheck k s.cfg.niir] s (s.setRes (resNat (s.cfg.iirLen k)))

end Sys2Proof.Machine
end

