-- ==== Sys2Proof/Machine/NoiseGate.lean ====
section
/-! DEFINITION. The noise gate (47_dsp_conditioning.md R300 to R304). -/

namespace Sys2Proof.Machine

/-- The target gain g: 1.0 if |x| >= THRESH, else +0.0 (47_dsp_conditioning.md R302). -/
def ngTarget (g : NgInst) (x : Int) : F32 :=
  if fge (f32OfInt (x.natAbs : Int)) g.thresh then 0x3F800000#32 else 0#32

/-- `fadd(g, fmul(c, fsub(SG, g)))` (47_dsp_conditioning.md R302). -/
def ngSmooth (target coef sg : F32) : F32 := fadd target (fmul coef (fsub sg target))

/-- NG.STEP's effect on one gate with input sample x: hold, release or attack (47_dsp_conditioning.md R302). -/
def ngPush (g : NgInst) (x : Int) : NgInst :=
  if flt g.hold g.holdtime then { g with hold := fadd g.hold g.sampletime }
  else if fle (ngTarget g x) g.sg then { g with sg := ngSmooth (ngTarget g x) g.release g.sg }
  else { g with sg := ngSmooth (ngTarget g x) g.attack g.sg, hold := 0#32 }

/-- The output of NG.STEP: the input times the gain after the update (47_dsp_conditioning.md R302). -/
def ngOut (g : NgInst) (x : Int) : F32 := fmul (f32OfInt x) (ngPush g x).sg

/-- THRESH, ATTACK, RELEASE, HOLDTIME, SAMPLETIME (47_dsp_conditioning.md R303). -/
def ngCfg (g : NgInst) : List F32 := [g.thresh, g.attack, g.release, g.holdtime, g.sampletime]

/-- HOLD, SG (47_dsp_conditioning.md R304). -/
def ngRegs (g : NgInst) : List F32 := [g.hold, g.sg]

/-- The configuration register with index n is written (47_dsp_conditioning.md R301). -/
def ngSetCfg (g : NgInst) (n : Nat) (v : F32) : NgInst :=
  match n with
  | 0 => { g with thresh := v }
  | 1 => { g with attack := v }
  | 2 => { g with release := v }
  | 3 => { g with holdtime := v }
  | 4 => { g with sampletime := v }
  | _ => g

/-- NG.RESET (47_dsp_conditioning.md R300). -/
def execNgReset (k : Nat) (arg : Word) (s : State) : Result :=
  guarded (.ngReset k arg) [instCheck k s.cfg.nng] s ((s.setNg k (s.ngAt k).clear).setRes resNone)

/-- NG.SETCFG (47_dsp_conditioning.md R301). -/
def execNgSetcfg (k n : Nat) (arg : Word) (s : State) : Result :=
  guarded (.ngSetcfg k n arg) [instCheck k s.cfg.nng, idxCheck n 5] s
    ((s.setNg k (ngSetCfg (s.ngAt k) n (argF32 arg))).setRes resNone)

/-- NG.STEP (47_dsp_conditioning.md R302). -/
def execNgStep (k : Nat) (arg : Word) (s : State) : Result :=
  guarded (.ngStep k arg) [instCheck k s.cfg.nng] s
    ((s.setNg k (ngPush (s.ngAt k) (argS16 arg))).setRes (resSample (cvtS16 (ngOut (s.ngAt k) (argS16 arg)))))

/-- NG.RDCFG (47_dsp_conditioning.md R303). -/
def execNgRdcfg (k n : Nat) (arg : Word) (s : State) : Result :=
  guarded (.ngRdcfg k n arg) [instCheck k s.cfg.nng, idxCheck n 5] s
    (s.setRes ((ngCfg (s.ngAt k)).getD n 0#32))

/-- NG.RDSTATE (47_dsp_conditioning.md R304). -/
def execNgRdstate (k n : Nat) (arg : Word) (s : State) : Result :=
  guarded (.ngRdstate k n arg) [instCheck k s.cfg.nng, idxCheck n 2] s
    (s.setRes ((ngRegs (s.ngAt k)).getD n 0#32))

end Sys2Proof.Machine
end

