-- ==== Sys2Proof/Machine/Prbs.lean ====
section
/-! DEFINITION. The PRBS9 generator and synchronizer (44_prbs9.md R220 to R225). -/

namespace Sys2Proof.Machine

/-- `fb(v) = v[8] xor v[4]` (44_prbs9.md R220). -/
def prbsFb (v : BitVec 9) : Bool := v.getLsbD 8 ^^ v.getLsbD 4

/-- `shift(v, b) = ((v << 1) or b) and 0x1FF` (44_prbs9.md R220). -/
def prbsShift (v : BitVec 9) (b : Bool) : BitVec 9 := v <<< 1 ||| (if b then 1#9 else 0#9)

/-- PRBS.GEN's effect on one register: the feedback bit enters (44_prbs9.md R221). -/
def prbsAdvance (p : PrbsInst) : PrbsInst := { p with lfsr := prbsShift p.lfsr (prbsFb p.lfsr) }

/-- PRBS.SYNC's effect on one instance with incoming bit b (44_prbs9.md R223). LOCKED may be set and is never
cleared. -/
def prbsTake (p : PrbsInst) (b : Bool) : PrbsInst :=
  if b ^^ prbsFb p.lfsr then { p with lfsr := prbsShift p.lfsr b, scnt := 0#8 }
  else
    { lfsr := prbsShift p.lfsr b
      scnt := p.scnt + 1#8
      locked := p.locked || (p.scnt + 1#8).toNat == lockCount }

/-- The result of PRBS.VALIDATE: 0 while unlocked, else whether the predicted bit is b (44_prbs9.md R224). -/
def prbsAgrees (p : PrbsInst) (b : Bool) : Bool := p.locked && prbsFb p.lfsr == b

/-- PRBS.VALIDATE's effect: none while unlocked, else as PRBS.GEN (44_prbs9.md R224). -/
def prbsValidated (p : PrbsInst) : PrbsInst := if p.locked then prbsAdvance p else p

/-- The word PRBS.RDSTATE reads: LOCKED in bit 24, SCNT in bits 23:16, LFSR in bits 8:0 (44_prbs9.md R225). -/
def prbsWord (p : PrbsInst) : Word :=
  0#7 ++ (if p.locked then 1#1 else 0#1) ++ p.scnt ++ 0#7 ++ p.lfsr

/-- PRBS.RESET (44_prbs9.md R222). -/
def execPrbsReset (k : Nat) (arg : Word) (s : State) : Result :=
  guarded (.prbsReset k arg) [instCheck k s.cfg.nprbs] s ((s.setPrbs k (s.prbsAt k).clear).setRes resNone)

/-- PRBS.GEN (44_prbs9.md R221): the result is the feedback bit. -/
def execPrbsGen (k : Nat) (arg : Word) (s : State) : Result :=
  guarded (.prbsGen k arg) [instCheck k s.cfg.nprbs] s
    ((s.setPrbs k (prbsAdvance (s.prbsAt k))).setRes (resBit (prbsFb (s.prbsAt k).lfsr)))

/-- PRBS.SYNC (44_prbs9.md R223): the result is LOCKED after the update. -/
def execPrbsSync (k : Nat) (arg : Word) (s : State) : Result :=
  guarded (.prbsSync k arg) [instCheck k s.cfg.nprbs] s
    ((s.setPrbs k (prbsTake (s.prbsAt k) (argBit arg))).setRes
      (resBit (prbsTake (s.prbsAt k) (argBit arg)).locked))

/-- PRBS.VALIDATE (44_prbs9.md R224). -/
def execPrbsValidate (k : Nat) (arg : Word) (s : State) : Result :=
  guarded (.prbsValidate k arg) [instCheck k s.cfg.nprbs] s
    ((s.setPrbs k (prbsValidated (s.prbsAt k))).setRes (resBit (prbsAgrees (s.prbsAt k) (argBit arg))))

/-- PRBS.RDSTATE (44_prbs9.md R225). -/
def execPrbsRdstate (k : Nat) (arg : Word) (s : State) : Result :=
  guarded (.prbsRdstate k arg) [instCheck k s.cfg.nprbs] s (s.setRes (prbsWord (s.prbsAt k)))

end Sys2Proof.Machine
end

