-- ==== Sys2Proof/Machine/Punc.lean ====
section
/-! DEFINITION. The puncture and depuncture engine (46_puncture.md R270 to R279). -/

namespace Sys2Proof.Machine

/-- What a run reads and does not change: the slot's pattern with its length, and INBUF. -/
structure RunInput where
  pattern : List Bool
  len     : Nat
  inbuf   : Memory
deriving DecidableEq, Repr

/-- PAT[s][p] in a run (46_puncture.md R278, R279). -/
def keepAt (r : RunInput) (p : Nat) : Bool := r.pattern.getD p false

/-- The loop of PUNC.PUNCT (46_puncture.md R278): `left` input bits remain, starting at bit i; o is the output cursor,
p the pattern index, `cap` the output capacity in bits. Returns the last o and OUTBUF. -/
def punctLoop (r : RunInput) (cap : Nat) : (left i o p : Nat) → Memory → Nat × Memory
  | 0, _, o, _, out => (o, out)
  | left + 1, i, o, p, out =>
    if cap ≤ o then (o, out)
    else if keepAt r p then
      punctLoop r cap left (i + 1) (o + 1) ((p + 1) % r.len) (setBit out o (getBit r.inbuf i))
    else punctLoop r cap left (i + 1) o ((p + 1) % r.len) out

/-- The loop of PUNC.DEPUNCT (46_puncture.md R279): `left` output bits remain, starting at bit o; j is the input
cursor, p the pattern index, `nbits` the number of input bits. Returns the last j, the last o and OUTBUF. -/
def depunctLoop (r : RunInput) (nbits : Nat) : (left o j p : Nat) → Memory → Nat × Nat × Memory
  | 0, o, j, _, out => (j, o, out)
  | left + 1, o, j, p, out =>
    if keepAt r p then
      if nbits ≤ j then (j, o, out)
      else depunctLoop r nbits left (o + 1) (j + 1) ((p + 1) % r.len) (setBit out o (getBit r.inbuf j))
    else depunctLoop r nbits left (o + 1) j ((p + 1) % r.len) (setBit out o false)

/-- What a run with slot `slot` reads. -/
def runInput (s : State) (slot : Nat) : RunInput := ⟨(s.slotAt slot).bits, (s.slotAt slot).plen, s.inbuf⟩

/-- A PUNC.PUNCT run (46_puncture.md R278). -/
def punctRun (s : State) (slot nin nout : Nat) : Nat × Memory :=
  punctLoop (runInput s slot) (8 * nout) (8 * nin) 0 0 0 s.outbuf

/-- A PUNC.DEPUNCT run (46_puncture.md R279). -/
def depunctRun (s : State) (slot nbits nout : Nat) : Nat × Nat × Memory :=
  depunctLoop (runInput s slot) nbits (8 * nout) 0 0 0 s.outbuf

/-- The result word of PUNC.DEPUNCT: bits consumed in 31:16, bits written in 15:0 (46_puncture.md R279). -/
def depunctWord (consumed written : Nat) : Word := BitVec.ofNat 16 consumed ++ BitVec.ofNat 16 written

/-- Check 6 of 60_exceptions.md R334: a length in ARG is in its domain. -/
def argCheck (ok : Bool) : Bool × Cause := (ok, .badArgument)

/-- Check 7 of 60_exceptions.md R334: the slot is configured. -/
def configCheck (s : State) (slot : Nat) : Bool × Cause := (decide ((s.slotAt slot).plen ≠ 0), .badConfig)

/-- PUNC.WRIN (46_puncture.md R270). -/
def execPuncWrin (n : Nat) (arg : Word) (s : State) : Result :=
  guarded (.puncWrin n arg) [idxCheck n s.cfg.pbufBytes] s
    ((s.setInbuf (writeByte s.inbuf n (argByte arg))).setRes resNone)

/-- PUNC.RDIN (46_puncture.md R271). -/
def execPuncRdin (n : Nat) (arg : Word) (s : State) : Result :=
  guarded (.puncRdin n arg) [idxCheck n s.cfg.pbufBytes] s (s.setRes ((readByte s.inbuf n).setWidth 32))

/-- PUNC.WROUT (46_puncture.md R272). -/
def execPuncWrout (n : Nat) (arg : Word) (s : State) : Result :=
  guarded (.puncWrout n arg) [idxCheck n s.cfg.pbufBytes] s
    ((s.setOutbuf (writeByte s.outbuf n (argByte arg))).setRes resNone)

/-- PUNC.RDOUT (46_puncture.md R273). -/
def execPuncRdout (n : Nat) (arg : Word) (s : State) : Result :=
  guarded (.puncRdout n arg) [idxCheck n s.cfg.pbufBytes] s (s.setRes ((readByte s.outbuf n).setWidth 32))

/-- PUNC.SETPAT (46_puncture.md R274). -/
def execPuncSetpat (slot n : Nat) (arg : Word) (s : State) : Result :=
  guarded (.puncSetpat slot n arg) [instCheck slot s.cfg.npat, idxCheck n s.cfg.pmax] s
    ((s.setSlot slot { s.slotAt slot with bits := (s.slotAt slot).bits.set n (argBit arg) }).setRes resNone)

/-- PUNC.RDPAT (46_puncture.md R275). -/
def execPuncRdpat (slot n : Nat) (arg : Word) (s : State) : Result :=
  guarded (.puncRdpat slot n arg) [instCheck slot s.cfg.npat, idxCheck n s.cfg.pmax] s
    (s.setRes (resBit ((s.slotAt slot).bits.getD n false)))

/-- PUNC.SETPLEN (46_puncture.md R276): BAD_ARGUMENT if n = 0 or n > PMAX. -/
def execPuncSetplen (slot : Nat) (arg : Word) (s : State) : Result :=
  guarded (.puncSetplen slot arg)
    [instCheck slot s.cfg.npat, argCheck (decide (argLen arg ≠ 0 ∧ argLen arg ≤ s.cfg.pmax))] s
    ((s.setSlot slot { s.slotAt slot with plen := argLen arg }).setRes resNone)

/-- PUNC.RDPLEN (46_puncture.md R277). -/
def execPuncRdplen (slot : Nat) (arg : Word) (s : State) : Result :=
  guarded (.puncRdplen slot arg) [instCheck slot s.cfg.npat] s (s.setRes (resNat (s.slotAt slot).plen))

/-- PUNC.PUNCT (46_puncture.md R278): BAD_ARGUMENT if nin or nout exceeds PBUF_BYTES, then BAD_CONFIG if PLEN is 0. -/
def execPuncPunct (slot : Nat) (arg : Word) (s : State) : Result :=
  guarded (.puncPunct slot arg)
    [instCheck slot s.cfg.npat,
     argCheck (decide (argLo arg ≤ s.cfg.pbufBytes ∧ argHi arg ≤ s.cfg.pbufBytes)), configCheck s slot] s
    ((s.setOutbuf (punctRun s slot (argLo arg) (argHi arg)).2).setRes
      (resNat (punctRun s slot (argLo arg) (argHi arg)).1))

/-- PUNC.DEPUNCT (46_puncture.md R279): BAD_ARGUMENT if nbits exceeds 8 PBUF_BYTES or nout exceeds PBUF_BYTES, then
BAD_CONFIG if PLEN is 0. -/
def execPuncDepunct (slot : Nat) (arg : Word) (s : State) : Result :=
  guarded (.puncDepunct slot arg)
    [instCheck slot s.cfg.npat,
     argCheck (decide (argLo arg ≤ 8 * s.cfg.pbufBytes ∧ argHi arg ≤ s.cfg.pbufBytes)), configCheck s slot] s
    ((s.setOutbuf (depunctRun s slot (argLo arg) (argHi arg)).2.2).setRes
      (depunctWord (depunctRun s slot (argLo arg) (argHi arg)).1 (depunctRun s slot (argLo arg) (argHi arg)).2.1))

end Sys2Proof.Machine
end

