-- ==== Sys2Proof/Machine/Pwm.lean ====
section
/-! DEFINITION. The PWM DAC pre-compensation filter (42_pwm.md R190 to R194). -/

namespace Sys2Proof.Machine

/-- The unscaled output y of `pwm_step` with input u, in the order of 42_pwm.md R190. -/
def pwmY (c : PwmCoef) (p : PwmInst) (u : F32) : F32 :=
  fsub (fsub (fadd (fadd (fmul c.b0 u) (fmul c.b1 p.u1)) (fmul c.b2 p.u2)) (fmul c.a1 p.y1)) (fmul c.a2 p.y2)

/-- The instance after `pwm_step` with input u: both histories shift (42_pwm.md R190). -/
def pwmPush (c : PwmCoef) (p : PwmInst) (u : F32) : PwmInst := ⟨u, p.u1, pwmY c p u, p.y1⟩

/-- What `pwm_step` returns: 0.5 times y (42_pwm.md R190). -/
def pwmOut (c : PwmCoef) (p : PwmInst) (u : F32) : F32 := fmul 0x3F000000#32 (pwmY c p u)

/-- PWM_B0, PWM_B1, PWM_B2, PWM_A1, PWM_A2 (42_pwm.md R193). -/
def coefList (c : PwmCoef) : List F32 := [c.b0, c.b1, c.b2, c.a1, c.a2]

/-- U1, U2, Y1, Y2 (42_pwm.md R194). -/
def pwmRegs (p : PwmInst) : List F32 := [p.u1, p.u2, p.y1, p.y2]

/-- PWM.RESET (42_pwm.md R191). -/
def execPwmReset (k : Nat) (arg : Word) (s : State) : Result :=
  guarded (.pwmReset k arg) [instCheck k s.cfg.npwm] s ((s.setPwm k (s.pwmAt k).clear).setRes resNone)

/-- PWM.STEP (42_pwm.md R192). -/
def execPwmStep (k : Nat) (arg : Word) (s : State) : Result :=
  guarded (.pwmStep k arg) [instCheck k s.cfg.npwm] s
    ((s.setPwm k (pwmPush s.cfg.pwmCoef (s.pwmAt k) (f32OfInt (argS16 arg)))).setRes
      (resSample (cvtS16 (pwmOut s.cfg.pwmCoef (s.pwmAt k) (f32OfInt (argS16 arg))))))

/-- PWM.RDCOEF (42_pwm.md R193). -/
def execPwmRdcoef (k n : Nat) (arg : Word) (s : State) : Result :=
  guarded (.pwmRdcoef k n arg) [instCheck k s.cfg.npwm, idxCheck n 5] s
    (s.setRes ((coefList s.cfg.pwmCoef).getD n 0#32))

/-- PWM.RDSTATE (42_pwm.md R194). -/
def execPwmRdstate (k n : Nat) (arg : Word) (s : State) : Result :=
  guarded (.pwmRdstate k n arg) [instCheck k s.cfg.npwm, idxCheck n 4] s
    (s.setRes ((pwmRegs (s.pwmAt k)).getD n 0#32))

end Sys2Proof.Machine
end

