-- ==== Sys2Proof/Machine/Dispatch.lean ====
section
/-! DEFINITION. The dispatch: one arm per constructor of Instr, each one direct call of its meaning. -/

namespace Sys2Proof.Machine

def exec (i : Instr) (s : State) : Host.Outcome State Fault Refusal :=
  match i with
  | .ctrlNop arg => Sys2Proof.Machine.execCtrlNop arg s
  | .ctrlRstall arg => Sys2Proof.Machine.execCtrlRstall arg s
  | .ctrlRdstatus arg => Sys2Proof.Machine.execCtrlRdstatus arg s
  | .ctrlClrerr arg => Sys2Proof.Machine.execCtrlClrerr arg s
  | .ctrlRdid arg => Sys2Proof.Machine.execCtrlRdid arg s
  | .ctrlRdparam n arg => Sys2Proof.Machine.execCtrlRdparam n arg s
  | .ctrlRdfcmd arg => Sys2Proof.Machine.execCtrlRdfcmd arg s
  | .ctrlRdfarg arg => Sys2Proof.Machine.execCtrlRdfarg arg s
  | .firReset k arg => Sys2Proof.Machine.execFirReset k arg s
  | .firSettap k n arg => Sys2Proof.Machine.execFirSettap k n arg s
  | .firStep k arg => Sys2Proof.Machine.execFirStep k arg s
  | .firStepf k arg => Sys2Proof.Machine.execFirStepf k arg s
  | .firRdtap k n arg => Sys2Proof.Machine.execFirRdtap k n arg s
  | .firRdhist k n arg => Sys2Proof.Machine.execFirRdhist k n arg s
  | .firRdn k arg => Sys2Proof.Machine.execFirRdn k arg s
  | .iirReset k arg => Sys2Proof.Machine.execIirReset k arg s
  | .iirSetnum k n arg => Sys2Proof.Machine.execIirSetnum k n arg s
  | .iirSetden k n arg => Sys2Proof.Machine.execIirSetden k n arg s
  | .iirStep k arg => Sys2Proof.Machine.execIirStep k arg s
  | .iirStepf k arg => Sys2Proof.Machine.execIirStepf k arg s
  | .iirRdnum k n arg => Sys2Proof.Machine.execIirRdnum k n arg s
  | .iirRdden k n arg => Sys2Proof.Machine.execIirRdden k n arg s
  | .iirRdhist k n arg => Sys2Proof.Machine.execIirRdhist k n arg s
  | .iirRdn k arg => Sys2Proof.Machine.execIirRdn k arg s
  | .pwmReset k arg => Sys2Proof.Machine.execPwmReset k arg s
  | .pwmStep k arg => Sys2Proof.Machine.execPwmStep k arg s
  | .pwmRdcoef k n arg => Sys2Proof.Machine.execPwmRdcoef k n arg s
  | .pwmRdstate k n arg => Sys2Proof.Machine.execPwmRdstate k n arg s
  | .crReset k arg => Sys2Proof.Machine.execCrReset k arg s
  | .crSample k arg => Sys2Proof.Machine.execCrSample k arg s
  | .crUpdate k arg => Sys2Proof.Machine.execCrUpdate k arg s
  | .crGetsp k arg => Sys2Proof.Machine.execCrGetsp k arg s
  | .crRdenergy k n arg => Sys2Proof.Machine.execCrRdenergy k n arg s
  | .crRdcount k arg => Sys2Proof.Machine.execCrRdcount k arg s
  | .crRdcursor k arg => Sys2Proof.Machine.execCrRdcursor k arg s
  | .crRdprev k arg => Sys2Proof.Machine.execCrRdprev k arg s
  | .prbsReset k arg => Sys2Proof.Machine.execPrbsReset k arg s
  | .prbsGen k arg => Sys2Proof.Machine.execPrbsGen k arg s
  | .prbsSync k arg => Sys2Proof.Machine.execPrbsSync k arg s
  | .prbsValidate k arg => Sys2Proof.Machine.execPrbsValidate k arg s
  | .prbsRdstate k arg => Sys2Proof.Machine.execPrbsRdstate k arg s
  | .golayCsum arg => Sys2Proof.Machine.execGolayCsum arg s
  | .golayEnc arg => Sys2Proof.Machine.execGolayEnc arg s
  | .golayDetect arg => Sys2Proof.Machine.execGolayDetect arg s
  | .golayDecode arg => Sys2Proof.Machine.execGolayDecode arg s
  | .puncWrin n arg => Sys2Proof.Machine.execPuncWrin n arg s
  | .puncRdin n arg => Sys2Proof.Machine.execPuncRdin n arg s
  | .puncWrout n arg => Sys2Proof.Machine.execPuncWrout n arg s
  | .puncRdout n arg => Sys2Proof.Machine.execPuncRdout n arg s
  | .puncSetpat slot n arg => Sys2Proof.Machine.execPuncSetpat slot n arg s
  | .puncRdpat slot n arg => Sys2Proof.Machine.execPuncRdpat slot n arg s
  | .puncSetplen slot arg => Sys2Proof.Machine.execPuncSetplen slot arg s
  | .puncRdplen slot arg => Sys2Proof.Machine.execPuncRdplen slot arg s
  | .puncPunct slot arg => Sys2Proof.Machine.execPuncPunct slot arg s
  | .puncDepunct slot arg => Sys2Proof.Machine.execPuncDepunct slot arg s
  | .dcrReset k arg => Sys2Proof.Machine.execDcrReset k arg s
  | .dcrSetalpha k arg => Sys2Proof.Machine.execDcrSetalpha k arg s
  | .dcrStep k arg => Sys2Proof.Machine.execDcrStep k arg s
  | .dcrRdalpha k arg => Sys2Proof.Machine.execDcrRdalpha k arg s
  | .dcrRdstate k n arg => Sys2Proof.Machine.execDcrRdstate k n arg s
  | .ngReset k arg => Sys2Proof.Machine.execNgReset k arg s
  | .ngSetcfg k n arg => Sys2Proof.Machine.execNgSetcfg k n arg s
  | .ngStep k arg => Sys2Proof.Machine.execNgStep k arg s
  | .ngRdcfg k n arg => Sys2Proof.Machine.execNgRdcfg k n arg s
  | .ngRdstate k n arg => Sys2Proof.Machine.execNgRdstate k n arg s
  | .convNeg arg => Sys2Proof.Machine.execConvNeg arg s
  | .convS16tou12 arg => Sys2Proof.Machine.execConvS16tou12 arg s
  | .convS16tou8 arg => Sys2Proof.Machine.execConvS16tou8 arg s
  | .convU12tos16 arg => Sys2Proof.Machine.execConvU12tos16 arg s
  | .convU8tos16 arg => Sys2Proof.Machine.execConvU8tos16 arg s

end Sys2Proof.Machine
end

