-- ==== Sys2Proof/Machine/Port.lean ====
section
/-! DEFINITION. CORE's command port: one command decoded and executed (40_control.md R140), and the host events a step
takes (log 4). -/

namespace Sys2Proof.Machine

/-- `execute(CMD, ARG)` (40_control.md R140): decode, then run the command or take the decoder's fault. -/
def runCommand (c : Command) (s : State) : Result :=
  match decode c with
  | .ok i => exec i s
  | .error e => rejectCommand e c s

/-- One host event: a command, or the reset input. -/
def runEvent (ev : HostEvent) (s : State) : Result :=
  match ev with
  | .command c => runCommand c s
  | .resetInput => .next s.powerOnReset

/-- One step: take the host's next event; with none, CORE "holds its state indefinitely between commands"
(60_exceptions.md R346). -/
def portStep (s : State) : Result :=
  match s.issue with
  | [] => .next s
  | ev :: _ => runEvent ev s.takeEvent

/-- The host presents the command whose bits are `w` next, before anything else it still does (log 4, log 18). -/
def presentNext (s : State) (nbits w : Nat) : State :=
  { s with issue := .command (commandOfBits nbits w) :: s.issue }

end Sys2Proof.Machine
end

