-- ==== Sys2Proof/Machine/Step.lean ====
section
/-! DEFINITION. The step function of CORE, and where the host's checks place one instruction. -/

namespace Sys2Proof.Machine

/-- One step of the machine: the port's next event (40_control.md R140, log 4). -/
def step (s : State) : Host.Outcome State Fault Refusal := portStep s

/-- `s` with the command whose bits are `w` presented next at the port (log 4). -/
def State.withFetchWord (s : State) (nbits w : Nat) : State := presentNext s nbits w

end Sys2Proof.Machine
end

