-- ==== Sys2Proof/Safety.lean ====
section
/-! DEFINITION. What a well-formed state of CORE is: legal parameters, banks of the sizes the parameters give, every
register within the legal values of 10_state.md, canonical buffers, and a fault record that can be one. CORE never
stops, so a safe run is one that stays in such states. -/

namespace Sys2Proof.Machine

/-- What 45_golay.md R240 requires of an encode table: its transpose inverts it, and its code has minimum distance 8
(45_golay.md R247 items 1 and 2; the code is linear, so its distance is the least weight of a nonzero codeword). -/
def GolayLegal (ge : List (BitVec 12)) : Prop :=
  (∀ v : BitVec 12, mulD ge (csum ge v) = v) ∧ (∀ v : BitVec 12, v ≠ 0#12 → 8 ≤ weight (codeword ge v))

/-- NFIR filters, each with FIR_NTAPS[k] taps and as many history words (10_state.md R35). -/
abbrev FirShape (s : State) : Prop :=
  s.fir.map (fun f => f.taps.length) = s.cfg.firNtaps ∧ s.fir.map (fun f => f.hist.length) = s.cfg.firNtaps

/-- NIIR filters, each with IIR_N[k] entries of NUM and DEN and one fewer of W (10_state.md R37). -/
abbrev IirShape (s : State) : Prop :=
  s.iir.map (fun f => f.num.length) = s.cfg.iirN ∧ s.iir.map (fun f => f.den.length) = s.cfg.iirN ∧
  s.iir.map (fun f => f.w.length) = s.cfg.iirN.map (fun n => n - 1)

/-- One clock-recovery entry: SPS bins, CURSOR and SP in 0..SPS-1 (10_state.md R40). -/
abbrev CrLegal (sps : Nat) (c : CrInst) : Prop := c.energy.length = sps ∧ c.cursor < sps ∧ c.sp < sps

/-- NCR legal clock-recovery entries. -/
abbrev CrShape (s : State) : Prop := s.cr.length = s.cfg.ncr ∧ ∀ c ∈ s.cr, CrLegal s.cfg.sps c

/-- A PRBS entry whose SCNT has reached LOCK_COUNT is locked: "SCNT wraps from 255 to 0 without effect, since LOCKED is
then already 1" (44_prbs9.md R223). -/
abbrev PrbsLegal (p : PrbsInst) : Prop := lockCount ≤ p.scnt.toNat → p.locked = true

/-- NPRBS legal PRBS entries. -/
abbrev PrbsShape (s : State) : Prop := s.prbs.length = s.cfg.nprbs ∧ ∀ p ∈ s.prbs, PrbsLegal p

/-- A pattern slot: PMAX bits, PLEN in 0..PMAX (10_state.md R52). -/
abbrev SlotLegal (pmax : Nat) (p : PatSlot) : Prop := p.bits.length = pmax ∧ p.plen ≤ pmax

/-- NPAT legal pattern slots. -/
abbrev PatShape (s : State) : Prop := s.pat.length = s.cfg.npat ∧ ∀ p ∈ s.pat, SlotLegal s.cfg.pmax p

/-- A buffer is canonical and lists only bytes 0..PBUF_BYTES-1 (20_memory.md R91). -/
abbrev BufferLegal (size : Nat) (m : Memory) : Prop := m.wf ∧ ∀ c ∈ m, c.1 < size

/-- The words STATUS can read after a fault (60_exceptions.md R333). -/
def faultStatusWords : List Word := [0x11#32, 0x21#32, 0x31#32, 0x41#32, 0x51#32, 0x61#32]

/-- The fault record: all zero, or a cause of 60_exceptions.md R332 with the CMD of a faulting command, which is never
0 (40_control.md R147). -/
abbrev RecordLegal (s : State) : Prop :=
  (s.status = 0#32 ∧ s.faultCmd = 0#32 ∧ s.faultArg = 0#32) ∨
  (s.status ∈ faultStatusWords ∧ s.faultCmd ≠ 0#32)

end Sys2Proof.Machine

namespace Sys2Proof.Config

open Sys2Proof.Machine

/-- The legal parameters (00_scope.md R7): every count and size in its range, and a GOLAY_E that 45_golay.md R240
admits. -/
structure Legal (c : Config) : Prop where
  sizes : c.SizesLegal
  golay : GolayLegal c.golayE

end Sys2Proof.Config

namespace Sys2Proof.Machine

/-- A well-formed state. -/
structure Inv (s : State) : Prop where
  cfg    : s.cfg.Legal
  fir    : FirShape s
  iir    : IirShape s
  pwm    : s.pwm.length = s.cfg.npwm
  cr     : CrShape s
  prbs   : PrbsShape s
  pat    : PatShape s
  dcr    : s.dcr.length = s.cfg.ndcr
  ng     : s.ng.length = s.cfg.nng
  inbuf  : BufferLegal s.cfg.pbufBytes s.inbuf
  outbuf : BufferLegal s.cfg.pbufBytes s.outbuf
  record : RecordLegal s

/-- A safe end of a step: a next state, and a well-formed one. -/
def SafeResult : Result → Prop
  | .next s => Inv s
  | .fault _ => False
  | .refused _ => False

end Sys2Proof.Machine
end

