-- ==== Sys2Proof/Certificates/Slice0/Obligations.lean ====
section
/-! DEFINITION. The statements for the provers, from the numbered rules of spec/. The helpers in namespace
Sys2Proof.Spec say again, in the spec's own terms, what a rule says: field numbers, formulas over indices, the check
order. They use the model's state and, where a rule names a binary32 primitive, the model's primitive. -/

namespace Sys2Proof.Spec

open Sys2Proof.Machine

/-! ### Commands and faults -/

/-- The state after `Fault(code)` on a command with the given words (60_exceptions.md R331, R333). -/
def faulted (code : Nat) (w : Command) (s : State) : State :=
  if s.status.getLsbD 0 then { s with res := 0#32 }
  else { s with res := 0#32, status := BitVec.ofNat 32 (code * 16 + 1), faultCmd := w.cmd, faultArg := w.arg }

/-- The command `i` faults with the given cause code. -/
def Faults (i : Instr) (code : Nat) (s : State) : Prop := exec i s = .next (faulted code (encode i) s)

/-- How many OPs of a UNIT are assigned (30_encoding.md R115). -/
def opsOf (unit : Nat) : Nat := [8, 7, 9, 4, 8, 5, 4, 10, 5, 5, 5].getD unit 0

/-- Column INST of 30_encoding.md R114: the row names a copy k or a slot s. -/
def usesInst (unit op : Nat) : Bool :=
  match unit with
  | 1 => true | 2 => true | 3 => true | 4 => true | 5 => true | 8 => true | 9 => true
  | 7 => decide (4 ≤ op)
  | _ => false

/-- The count INST must be below (30_encoding.md R113). -/
def countOf (c : Config) (unit : Nat) : Nat :=
  [0, c.nfir, c.niir, c.npwm, c.ncr, c.nprbs, 0, c.npat, c.ndcr, c.nng, 0].getD unit 0

/-- Column IDX of 30_encoding.md R114: the first legal index and the first one past the legal range, for copy k. -/
def idxRange (c : Config) (unit op k : Nat) : Option (Nat × Nat) :=
  match unit, op with
  | 0, 5 => some (0, 12)
  | 1, 1 => some (0, c.firN k) | 1, 4 => some (0, c.firN k) | 1, 5 => some (0, c.firN k)
  | 2, 1 => some (0, c.iirLen k) | 2, 2 => some (0, c.iirLen k)
  | 2, 5 => some (0, c.iirLen k) | 2, 6 => some (0, c.iirLen k) | 2, 7 => some (1, c.iirLen k)
  | 3, 2 => some (0, 5) | 3, 3 => some (0, 4)
  | 4, 4 => some (0, c.sps)
  | 7, 0 => some (0, c.pbufBytes) | 7, 1 => some (0, c.pbufBytes)
  | 7, 2 => some (0, c.pbufBytes) | 7, 3 => some (0, c.pbufBytes)
  | 7, 4 => some (0, c.pmax) | 7, 5 => some (0, c.pmax)
  | 8, 4 => some (0, 2)
  | 9, 1 => some (0, 5) | 9, 3 => some (0, 5) | 9, 4 => some (0, 2)
  | _, _ => none

/-- Column IDX of 30_encoding.md R114 names an index. -/
def usesIdx (unit op : Nat) : Bool := (idxRange Config.reference unit op 0).isSome

/-- The "Encoding" line of a rule, and the check of the encoding that every command has: CMD is UNIT.OP with the given
INST and IDX (30_encoding.md R111), and a command word of this UNIT.OP in which a field that must be 0 is not 0 faults
with RESERVED_FIELD (30_encoding.md R115). -/
def Encodes (i : Instr) (unit op inst idx : Nat) (s : State) : Prop :=
  encode i = ⟨BitVec.ofNat 32 (unit * 2 ^ 28 + op * 2 ^ 24 + inst * 2 ^ 20 + idx * 2 ^ 8), i.arg⟩ ∧
  ∀ c : Command, c.cmd.toNat / 2 ^ 24 = unit * 16 + op →
    (c.cmd.toNat % 256 ≠ 0 ∨ (usesInst unit op = false ∧ c.cmd.toNat / 2 ^ 20 % 16 ≠ 0) ∨
      (usesIdx unit op = false ∧ c.cmd.toNat / 2 ^ 8 % 4096 ≠ 0)) →
    runCommand c s = .next (faulted 2 c s)

/-- BAD_INSTANCE (60_exceptions.md R332). -/
def badInstance (s : State) (f : Fields) : Bool := usesInst f.unit f.op && decide (countOf s.cfg f.unit ≤ f.inst)

/-- BAD_INDEX (60_exceptions.md R332). -/
def badIndex (s : State) (f : Fields) : Bool :=
  match idxRange s.cfg f.unit f.op f.inst with
  | some (lo, hi) => decide (f.idx < lo ∨ hi ≤ f.idx)
  | none => false

/-- BAD_ARGUMENT (60_exceptions.md R332), for ARG[15:0] = lo and ARG[31:16] = hi. -/
def badArgument (s : State) (f : Fields) (lo hi : Nat) : Bool :=
  match f.unit, f.op with
  | 7, 6 => decide (lo = 0 ∨ s.cfg.pmax < lo)
  | 7, 8 => decide (s.cfg.pbufBytes < lo ∨ s.cfg.pbufBytes < hi)
  | 7, 9 => decide (8 * s.cfg.pbufBytes < lo ∨ s.cfg.pbufBytes < hi)
  | _, _ => false

/-- BAD_CONFIG (60_exceptions.md R332): PLEN[s] is 0. -/
def badConfig (s : State) (f : Fields) : Bool :=
  match f.unit, f.op with
  | 7, 8 => ((s.pat[f.inst]?).map PatSlot.plen).getD 0 == 0
  | 7, 9 => ((s.pat[f.inst]?).map PatSlot.plen).getD 0 == 0
  | _, _ => false

/-- Checks 4 to 7 of 60_exceptions.md R334 in their order, as the cause code of the first that fails. -/
def check (s : State) (i : Instr) : Option Nat :=
  if badInstance s i.fields then some 3
  else if badIndex s i.fields then some 4
  else if badArgument s i.fields (i.arg.toNat % 65536) (i.arg.toNat / 65536) then some 5
  else if badConfig s i.fields then some 6
  else none

/-- The pure reads (20_memory.md R98): every mnemonic that begins with RD, and CR.GETSP, by UNIT.OP. -/
def isRead (i : Instr) : Bool :=
  (i.fields.unit, i.fields.op) ∈
    [(0, 2), (0, 4), (0, 5), (0, 6), (0, 7), (1, 4), (1, 5), (1, 6), (2, 5), (2, 6), (2, 7), (2, 8), (3, 2), (3, 3),
     (4, 3), (4, 4), (4, 5), (4, 6), (4, 7), (5, 4), (7, 1), (7, 3), (7, 5), (7, 7), (8, 3), (8, 4), (9, 3), (9, 4)]

/-- Commands executed one after another; none if one of them does not answer a next state. -/
def runAll : List Instr → State → Option State
  | [], s => some s
  | i :: is, s =>
    match exec i s with
    | .next t => runAll is t
    | _ => none

/-! ### Formulas of the units -/

/-- `acc` of 41_fir_iir.md R163 after the indices 0 .. n-1. -/
def firAcc (tap x : List F32) : Nat → F32
  | 0 => 0x00000000#32
  | n + 1 => fadd (firAcc tap x n) (fmul (tap.getD n 0#32) (x.getD n 0#32))

/-- An accumulator of 41_fir_iir.md R170 after the indices 1 .. n; W[i] is entry i-1 of w. -/
def iirAcc (coef w : List F32) : Nat → F32
  | 0 => 0x00000000#32
  | n + 1 => fadd (iirAcc coef w n) (fmul (coef.getD (n + 1) 0#32) (w.getD n 0#32))

/-- `h` is `old` shifted by one with x entering at index 0 (41_fir_iir.md R163, R170). -/
def ShiftedIn (x : F32) (old h : List F32) : Prop :=
  h.length = old.length ∧ (∀ i, i + 1 < old.length → h[i + 1]? = old[i]?) ∧ (0 < old.length → h[0]? = some x)

/-- A sample result (00_scope.md R17). -/
def sampleWord (v : Int) : Word := (BitVec.ofInt 16 v).signExtend 32

/-- The sample in ARG (00_scope.md R16): ARG[15:0], less 65536 if bit 15 is set. -/
def sampleOf (arg : Word) : Int :=
  if arg.toNat % 65536 < 32768 then (arg.toNat % 65536 : Nat) else (arg.toNat % 65536 : Nat) - (65536 : Int)

/-- The energy at index i is positive. -/
def PosAt (e : List (BitVec 32)) (i : Nat) : Prop := ∃ v, e[i]? = some v ∧ 0 < v.toInt

/-- The energy at index i is negative. -/
def NegAt (e : List (BitVec 32)) (i : Nat) : Prop := ∃ v, e[i]? = some v ∧ v.toInt < 0

/-- Index i is negative after an earlier positive one. -/
def CrossesAt (e : List (BitVec 32)) (i : Nat) : Prop := NegAt e i ∧ ∃ j, j < i ∧ PosAt e j

/-- The crossing index of 43_clock_recovery.md R202: the first index that crosses. -/
def FirstCrossing (e : List (BitVec 32)) (i : Nat) : Prop := CrossesAt e i ∧ ∀ j, j < i → ¬ CrossesAt e j

/-- `fb(v)` as a number (44_prbs9.md R220). -/
def fb (v : BitVec 9) : Nat := (v.toNat / 256 + v.toNat / 16) % 2

/-- `shift(v, b)` (44_prbs9.md R220). -/
def shift (v : BitVec 9) (b : Nat) : BitVec 9 := BitVec.ofNat 9 (2 * v.toNat + b)

/-- ARG[0] as a number. -/
def bitOf (arg : Word) : Nat := arg.toNat % 2

/-- Bit i of csum(v): the XOR over j of v[j] and GE[j][i] (45_golay.md R242). -/
def parityBit (ge : List (BitVec 12)) (v : BitVec 12) (i : Nat) : Bool :=
  (List.range 12).foldl (fun acc j => acc ^^ (v.getLsbD j && (ge.getD j 0#12).getLsbD i)) false

/-- GD[i] (45_golay.md R241): bit j is bit i of GE[j]. -/
def IsTranspose (ge gd : List (BitVec 12)) : Prop :=
  gd.length = 12 ∧ ∀ i j, i < 12 → j < 12 → (gd.getD i 0#12).getLsbD j = (ge.getD j 0#12).getLsbD i

/-- The stages of `detect` (45_golay.md R244) on words, for the syndrome s and the inverse syndrome inv: the first index
that passes a stage's test wins. -/
def detectStages (ge gd : List (BitVec 12)) (s inv : BitVec 12) : Word :=
  if weight s ≤ 3 then s.setWidth 32
  else
    match (List.range 12).find? fun j => decide (weight (s ^^^ ge.getD j 0#12) ≤ 2) with
    | some j => (1#32 <<< (12 + j)) ||| (s ^^^ ge.getD j 0#12).setWidth 32
    | none =>
      if weight inv ≤ 3 then inv.setWidth 32 <<< 12
      else
        match (List.range 12).find? fun i => decide (weight (inv ^^^ gd.getD i 0#12) ≤ 2) with
        | some i => ((inv ^^^ gd.getD i 0#12).setWidth 32 <<< 12) ||| (1#32 <<< i)
        | none => 0xFFFFFFFF#32

/-- `p` holds, bit by bit, the XOR of the entries of table t selected by v (45_golay.md R242, R244 mulD). -/
def IsProduct (t : List (BitVec 12)) (v p : BitVec 12) : Prop := ∀ i, i < 12 → p.getLsbD i = parityBit t v i

/-- The pattern keeps the input bit at position i of a run (46_puncture.md R278): PAT[i mod L] = 1. -/
def keeps (pat : PatSlot) (i : Nat) : Bool := pat.bits.getD (i % pat.plen) false

/-- The positions below m that the pattern keeps, in order. -/
def keptPositions (pat : PatSlot) (m : Nat) : List Nat := (List.range m).filter (keeps pat)

/-- How many positions below m the pattern keeps. -/
def keptBefore (pat : PatSlot) (m : Nat) : Nat := (keptPositions pat m).length

/-- Stream bit i of a buffer: bit 7 - (i mod 8) of byte i / 8 (20_memory.md R93, MSB first). -/
def streamBit (m : Memory) (i : Nat) : Bool := (readByte m (i / 8)).getLsbD (7 - i % 8)

/-- Two buffers hold the same stream bits from position n on. -/
def SameBitsFrom (n : Nat) (m m' : Memory) : Prop := ∀ i, n ≤ i → streamBit m' i = streamBit m i

/-! ### Exact values of binary32 patterns, in units of 2^-149 -/

/-- The exact value `x` lies within half a unit of the largest finite number, so that it does not overflow: below
(2 - 2^-24) 2^127, which is (2^25 - 1) 2^252 in units of 2^-149. -/
def NoOverflow (x scale : Int) : Prop := -((2 ^ 25 - 1) * 2 ^ 252 * scale) < x ∧ x < (2 ^ 25 - 1) * 2 ^ 252 * scale

/-- `r` is a finite pattern nearest to the exact value `x`, given in units of 2^-149 / scale; and if another finite value
is as near, the last bit of r's significand is 0 (00_scope.md R13: once, to nearest, ties to even). -/
def NearestEven (r : F32) (x scale : Int) : Prop :=
  isFinite r = true ∧
  (∀ f : F32, isFinite f = true → |val r * scale - x| ≤ |val f * scale - x|) ∧
  (∀ f : F32, isFinite f = true → val f ≠ val r → |val f * scale - x| = |val r * scale - x| → r.getLsbD 0 = false)

end Sys2Proof.Spec

open Sys2Proof Sys2Proof.Machine Sys2Proof.Spec

/-! ## Encoding and the step -/

/-- The decoder reads the example words of 30_encoding.md R117 and R119. -/
def Obligations.DecoderReadsTheExampleWords : Prop :=
  decode ⟨0x41000000#32, 0xFFFFFFFB#32⟩ = .ok (.crSample 0 0xFFFFFFFB#32) ∧
  decode ⟨0x44000900#32, 0#32⟩ = .ok (.crRdenergy 0 9 0#32) ∧
  decode ⟨0x52100000#32, 1#32⟩ = .ok (.prbsSync 1 1#32) ∧
  decode ⟨0x61000000#32, 0x123#32⟩ = .ok (.golayEnc 0x123#32) ∧
  decode ⟨0x74100B00#32, 0#32⟩ = .ok (.puncSetpat 1 11 0#32) ∧
  decode ⟨0x91000400#32, 0x3903126F#32⟩ = .ok (.ngSetcfg 0 4 0x3903126F#32) ∧
  decode ⟨0xA1000000#32, 0xFFFF8000#32⟩ = .ok (.convS16tou12 0xFFFF8000#32) ∧
  decode ⟨0x11000300#32, 0x3E800000#32⟩ = .ok (.firSettap 0 3 0x3E800000#32) ∧
  decode ⟨0x78100000#32, 0x00030003#32⟩ = .ok (.puncPunct 1 0x00030003#32)

/-- Every well-formed command decodes back from its words, with every field at every value it can have (30_encoding.md
R110, R111, R114). -/
def Obligations.DecodeOfEncodeIsTheCommand : Prop := ∀ i : Instr, i.wf = true → decode (encode i) = .ok i

/-- Words that decode are the encoding of what they decode to, which is well-formed: each word has one meaning, and the
words FAULTCMD and FAULTARG keep are the words the host wrote (30_encoding.md R115, R116; log 6). -/
def Obligations.EncodeOfDecodeIsTheWords : Prop :=
  ∀ (c : Command) (i : Instr), decode c = .ok i → i.wf = true ∧ encode i = c

/-- The decoder rejects exactly the reserved encodings, each under its name (30_encoding.md R112, R115). -/
def Obligations.DecoderRejectsExactlyTheReservedEncodings : Prop :=
  ∀ c : Command,
    (decode c = .error .illegalOpcode ↔
      opsOf (c.cmd.toNat / 2 ^ 28) ≤ c.cmd.toNat / 2 ^ 24 % 16) ∧
    (decode c = .error .reservedField ↔
      c.cmd.toNat / 2 ^ 24 % 16 < opsOf (c.cmd.toNat / 2 ^ 28) ∧
      (c.cmd.toNat % 256 ≠ 0 ∨
       (usesInst (c.cmd.toNat / 2 ^ 28) (c.cmd.toNat / 2 ^ 24 % 16) = false ∧ c.cmd.toNat / 2 ^ 20 % 16 ≠ 0) ∨
       (usesIdx (c.cmd.toNat / 2 ^ 28) (c.cmd.toNat / 2 ^ 24 % 16) = false ∧ c.cmd.toNat / 2 ^ 8 % 4096 ≠ 0)))

/-- A step runs the command that the host's words decode to, and that event is used up (40_control.md R140). The list
of host events is the model's choice (log 4). -/
def Obligations.StepRunsTheDecodedCommand : Prop :=
  ∀ (s : State) (c : Command) (rest : List HostEvent) (i : Instr),
    s.issue = .command c :: rest → decode c = .ok i → step s = exec i { s with issue := rest }

/-- A step whose command the decoder rejects takes the fault: ILLEGAL_OPCODE (1) or RESERVED_FIELD (2), with the
host's words (60_exceptions.md R331, R333). The list of host events is the model's choice (log 4). -/
def Obligations.StepFaultsOnARejectedCommand : Prop :=
  ∀ (s : State) (c : Command) (rest : List HostEvent), s.issue = .command c :: rest →
    (decode c = .error .illegalOpcode → step s = .next (faulted 1 c { s with issue := rest })) ∧
    (decode c = .error .reservedField → step s = .next (faulted 2 c { s with issue := rest }))

/-- With nothing at the port a step leaves the state as it is (the model's choice, log 4; 60_exceptions.md R346), and the
reset input gives every register its power-on value and keeps the parameters (70_reset_and_hazards.md R360, log 5). -/
def Obligations.StepWaitsOrResets : Prop :=
  ∀ s : State,
    (s.issue = [] → step s = .next s) ∧
    (∀ rest, s.issue = .resetInput :: rest → step s = .next { State.powerOn s.cfg with issue := rest })

/-- Every step of every state completes, uses up one event of the host, and changes no parameter: "Execution is not
halted" (60_exceptions.md R331), "No command changes it" (00_scope.md R7). The list of host events is the model's
choice (log 4). -/
def Obligations.EveryStepCompletesAndKeepsTheParameters : Prop :=
  ∀ s : State, ∃ t, step s = .next t ∧ t.cfg = s.cfg ∧ t.issue = s.issue.tail

/-- Every step from a well-formed state leads to a well-formed one: legal register values (10_state.md), bank sizes,
canonical buffers inside PBUF_BYTES, and a possible fault record. The list of host events is the model's choice (log
4). -/
def Obligations.StepKeepsWellFormedness : Prop :=
  ∀ s t : State, Inv s → step s = .next t → Inv t

/-- The state after reset is well-formed. That it is built with DEFAULT is the model's choice (log 1), and its Golay
table is presumed (log 3). -/
def Obligations.ResetStateIsWellFormed : Prop := Inv State.reset

/-- Power-on gives a well-formed state for every legal choice of the parameters (00_scope.md R7). -/
def Obligations.PowerOnIsWellFormed : Prop := ∀ c : Config, c.Legal → Inv (State.powerOn c)

/-- Every register at power-on (70_reset_and_hazards.md R360), for every choice of the parameters. -/
def Obligations.PowerOnGivesEveryRegisterItsValue : Prop :=
  ∀ c : Config,
    (State.powerOn c).res = 0#32 ∧ (State.powerOn c).status = 0#32 ∧ (State.powerOn c).faultCmd = 0#32 ∧
    (State.powerOn c).faultArg = 0#32 ∧ (State.powerOn c).cfg = c ∧
    (∀ (k : Nat) (f : FirInst), (State.powerOn c).fir[k]? = some f → ∀ (n : Nat) (v : F32),
      (f.taps[n]? = some v ∨ f.hist[n]? = some v) → v = 0x00000000#32) ∧
    (∀ (k : Nat) (f : IirInst), (State.powerOn c).iir[k]? = some f → ∀ (n : Nat) (v : F32),
      (f.num[n]? = some v ∨ f.den[n]? = some v ∨ f.w[n]? = some v) → v = 0x00000000#32) ∧
    (∀ (k : Nat) (p : PwmInst), (State.powerOn c).pwm[k]? = some p →
      p.u1 = 0x00000000#32 ∧ p.u2 = 0x00000000#32 ∧ p.y1 = 0x00000000#32 ∧ p.y2 = 0x00000000#32) ∧
    (∀ (k : Nat) (r : CrInst), (State.powerOn c).cr[k]? = some r →
      (∀ (n : Nat) (v : BitVec 32), r.energy[n]? = some v → v = 0#32) ∧ r.prev = 0#16 ∧ r.cursor = 0 ∧
      r.nsamp = 0#32 ∧ r.sp = 0) ∧
    (∀ (k : Nat) (p : PrbsInst), (State.powerOn c).prbs[k]? = some p →
      p.lfsr = 0x001#9 ∧ p.scnt = 0#8 ∧ p.locked = false) ∧
    (∀ a : Nat, readByte (State.powerOn c).inbuf a = 0#8 ∧ readByte (State.powerOn c).outbuf a = 0#8) ∧
    (∀ (k : Nat) (p : PatSlot), (State.powerOn c).pat[k]? = some p →
      p.plen = 0 ∧ ∀ (n : Nat) (b : Bool), p.bits[n]? = some b → b = false) ∧
    (∀ (k : Nat) (d : DcrInst), (State.powerOn c).dcr[k]? = some d →
      d.alpha = 0x00000000#32 ∧ d.u1 = 0x00000000#32 ∧ d.y1 = 0x00000000#32) ∧
    (∀ (k : Nat) (g : NgInst), (State.powerOn c).ng[k]? = some g →
      g.thresh = 0x00000000#32 ∧ g.attack = 0x00000000#32 ∧ g.release = 0x00000000#32 ∧
      g.holdtime = 0x00000000#32 ∧ g.sampletime = 0x00000000#32 ∧ g.hold = 0x00000000#32 ∧ g.sg = 0x00000000#32)

/-! ## Faults -/

/-- A command that fails a check of 60_exceptions.md R334 has RES = 0 and the record of the first failing check, if ERR
was 0, and changes nothing else, for every command and every state (R331, R332, R333). -/
def Obligations.FaultingCommandOnlyRecordsTheFault : Prop :=
  ∀ (s : State) (i : Instr) (code : Nat), check s i = some code → Faults i code s

/-- A command that passes the checks of 60_exceptions.md R334 answers a next state and leaves the fault record as it was,
but for CTRL.CLRERR, which clears it. -/
def Obligations.PassingCommandCompletesWithoutAFault : Prop :=
  ∀ (s : State) (i : Instr), check s i = none →
    ∃ t, exec i s = .next t ∧ t.cfg = s.cfg ∧ t.issue = s.issue ∧
      (if (i.fields.unit, i.fields.op) = (0, 3) then t.status = 0#32 ∧ t.faultCmd = 0#32 ∧ t.faultArg = 0#32
       else t.status = s.status ∧ t.faultCmd = s.faultCmd ∧ t.faultArg = s.faultArg)

/-- While ERR is set, no step changes the fault record unless its event is CTRL.CLRERR or the reset input: "Only
CTRL.CLRERR and power-on reset clear the record" (60_exceptions.md R333). The list of host events is the model's
choice (log 4). -/
def Obligations.OnlyClrerrOrResetClearsTheRecord : Prop :=
  ∀ (s : State) (c : Command) (rest : List HostEvent), s.status.getLsbD 0 = true →
    s.issue = .command c :: rest → c.cmd ≠ 0x03000000#32 →
    ∃ t, step s = .next t ∧ t.status = s.status ∧ t.faultCmd = s.faultCmd ∧ t.faultArg = s.faultArg

/-- Every RD command and CR.GETSP changes RES alone, and issued again gives the same RES (20_memory.md R98, first
item). -/
def Obligations.ReadCommandsChangeOnlyRes : Prop :=
  ∀ (s : State) (i : Instr), isRead i = true → check s i = none →
    ∃ r, exec i s = .next { s with res := r } ∧ exec i { s with res := r } = .next { s with res := r }

/-! ## CTRL -/

/-- CTRL.NOP, CTRL.RDSTATUS, CTRL.RDID, CTRL.RDFCMD, CTRL.RDFARG (40_control.md R141, R143, R145, R147, R148): RES alone
changes; a nonzero CMD[23:0] faults with RESERVED_FIELD. -/
def Obligations.CtrlReadsAnswerTheirRegister : Prop :=
  ∀ (s : State) (arg : Word),
    exec (.ctrlNop arg) s = .next { s with res := 0#32 } ∧
    exec (.ctrlRdstatus arg) s = .next { s with res := s.status } ∧
    exec (.ctrlRdid arg) s = .next { s with res := 0x4D313707#32 } ∧
    exec (.ctrlRdfcmd arg) s = .next { s with res := s.faultCmd } ∧
    exec (.ctrlRdfarg arg) s = .next { s with res := s.faultArg } ∧
    Encodes (.ctrlNop arg) 0 0 0 0 s ∧ Encodes (.ctrlRdstatus arg) 0 2 0 0 s ∧ Encodes (.ctrlRdid arg) 0 4 0 0 s ∧
    Encodes (.ctrlRdfcmd arg) 0 6 0 0 s ∧ Encodes (.ctrlRdfarg arg) 0 7 0 0 s

/-- CTRL.RDPARAM (40_control.md R146): the twelve parameters, their DEFAULT values, BAD_INDEX above 11, RESERVED_FIELD
for INST or RSV. -/
def Obligations.CtrlRdparamReadsTheParameters : Prop :=
  (∃ c : Config, c = Config.reference ∧
    [c.sps, c.firNtaps.length, c.iirN.length, c.npwm, c.ncr, c.nprbs, c.ndcr, c.nng, c.pbufBytes, c.pmax, c.npat] =
      [10, 2, 2, 1, 1, 2, 2, 1, 64, 64, 2]) ∧
  ∀ (s : State) (n : Nat) (arg : Word),
    (∀ p, [s.cfg.sps, s.cfg.firNtaps.length, s.cfg.iirN.length, s.cfg.npwm, s.cfg.ncr, s.cfg.nprbs, s.cfg.ndcr,
        s.cfg.nng, s.cfg.pbufBytes, s.cfg.pmax, s.cfg.npat, 18][n]? = some p →
      exec (.ctrlRdparam n arg) s = .next { s with res := BitVec.ofNat 32 p }) ∧
    (11 < n → Faults (.ctrlRdparam n arg) 4 s) ∧
    Encodes (.ctrlRdparam n arg) 0 5 0 n s

/-- CTRL.CLRERR (40_control.md R144): the record is cleared and nothing else changes but RES, and the next fault is
recorded again (60_exceptions.md R339). -/
def Obligations.CtrlClrerrClearsAndRearmsTheRecord : Prop :=
  ∀ (s : State) (arg : Word),
    exec (.ctrlClrerr arg) s =
      .next { s with status := 0#32, faultCmd := 0#32, faultArg := 0#32, res := 0#32 } ∧
    Encodes (.ctrlClrerr arg) 0 3 0 0 s ∧
    (∀ (i : Instr) (t : State), exec (.ctrlClrerr arg) s = .next t → ∀ code, check t i = some code →
      exec i t = .next { t with res := 0#32, status := BitVec.ofNat 32 (code * 16 + 1),
                                faultCmd := (encode i).cmd, faultArg := (encode i).arg })

/-- CTRL.RSTALL (40_control.md R142): every stream register of every unit at its reset value; the fault record, the
configuration and the PUNC buffers unchanged. -/
def Obligations.CtrlRstallResetsEveryStream : Prop :=
  ∀ (s : State) (arg : Word),
    ∃ t : State, exec (.ctrlRstall arg) s = .next t ∧
      t = { s with res := 0#32, fir := t.fir, iir := t.iir, pwm := t.pwm, cr := t.cr, prbs := t.prbs, dcr := t.dcr,
                   ng := t.ng } ∧
      (∀ k : Nat, t.fir[k]? = (s.fir[k]?).map fun f => FirInst.mk f.taps (List.replicate f.hist.length 0#32)) ∧
      (∀ k : Nat, t.iir[k]? = (s.iir[k]?).map fun f => IirInst.mk f.num f.den (List.replicate f.w.length 0#32)) ∧
      (∀ k : Nat, t.pwm[k]? = (s.pwm[k]?).map fun _ => PwmInst.mk 0#32 0#32 0#32 0#32) ∧
      (∀ k : Nat, t.cr[k]? = (s.cr[k]?).map fun c => CrInst.mk (List.replicate c.energy.length 0#32) 0#16 0 0#32 0) ∧
      (∀ k : Nat, t.prbs[k]? = (s.prbs[k]?).map fun _ => PrbsInst.mk 0x001#9 0#8 false) ∧
      (∀ k : Nat, t.dcr[k]? = (s.dcr[k]?).map fun d => DcrInst.mk d.alpha 0#32 0#32) ∧
      (∀ k : Nat, t.ng[k]? = (s.ng[k]?).map fun g =>
        NgInst.mk g.thresh g.attack g.release g.holdtime g.sampletime 0#32 0#32) ∧
      Encodes (.ctrlRstall arg) 0 1 0 0 s

/-! ## Resets, configuration and readback of the banks -/

/-- The RESET commands (41_fir_iir.md R161, R171, 42_pwm.md R191, 43_clock_recovery.md R200, 44_prbs9.md R222,
47_dsp_conditioning.md R290, R300): the stream state of that one entry, and RES; BAD_INSTANCE at the count and above. -/
def Obligations.UnitResetsClearOneStream : Prop :=
  ∀ (s : State) (k : Nat) (arg : Word),
    (∀ f, k < s.cfg.nfir → s.fir[k]? = some f → exec (.firReset k arg) s =
      .next { s with fir := s.fir.set k { f with hist := List.replicate f.hist.length 0#32 }, res := 0#32 }) ∧
    (∀ f, k < s.cfg.niir → s.iir[k]? = some f → exec (.iirReset k arg) s =
      .next { s with iir := s.iir.set k { f with w := List.replicate f.w.length 0#32 }, res := 0#32 }) ∧
    (k < s.cfg.npwm → exec (.pwmReset k arg) s =
      .next { s with pwm := s.pwm.set k ⟨0#32, 0#32, 0#32, 0#32⟩, res := 0#32 }) ∧
    (∀ c, k < s.cfg.ncr → s.cr[k]? = some c → exec (.crReset k arg) s =
      .next { s with cr := s.cr.set k ⟨List.replicate c.energy.length 0#32, 0#16, 0, 0#32, 0⟩, res := 0#32 }) ∧
    (k < s.cfg.nprbs → exec (.prbsReset k arg) s =
      .next { s with prbs := s.prbs.set k ⟨0x001#9, 0#8, false⟩, res := 0#32 }) ∧
    (∀ d, k < s.cfg.ndcr → s.dcr[k]? = some d → exec (.dcrReset k arg) s =
      .next { s with dcr := s.dcr.set k { d with u1 := 0#32, y1 := 0#32 }, res := 0#32 }) ∧
    (∀ g, k < s.cfg.nng → s.ng[k]? = some g → exec (.ngReset k arg) s =
      .next { s with ng := s.ng.set k { g with hold := 0#32, sg := 0#32 }, res := 0#32 }) ∧
    (s.cfg.nfir ≤ k → Faults (.firReset k arg) 3 s) ∧ (s.cfg.niir ≤ k → Faults (.iirReset k arg) 3 s) ∧
    (s.cfg.npwm ≤ k → Faults (.pwmReset k arg) 3 s) ∧ (s.cfg.ncr ≤ k → Faults (.crReset k arg) 3 s) ∧
    (s.cfg.nprbs ≤ k → Faults (.prbsReset k arg) 3 s) ∧ (s.cfg.ndcr ≤ k → Faults (.dcrReset k arg) 3 s) ∧
    (s.cfg.nng ≤ k → Faults (.ngReset k arg) 3 s) ∧
    Encodes (.firReset k arg) 1 0 k 0 s ∧ Encodes (.iirReset k arg) 2 0 k 0 s ∧ Encodes (.pwmReset k arg) 3 0 k 0 s ∧
    Encodes (.crReset k arg) 4 0 k 0 s ∧ Encodes (.prbsReset k arg) 5 0 k 0 s ∧ Encodes (.dcrReset k arg) 8 0 k 0 s ∧
    Encodes (.ngReset k arg) 9 0 k 0 s

/-- FIR.SETTAP, IIR.SETNUM, IIR.SETDEN (41_fir_iir.md R162, R172, R173): ARG is stored verbatim in that one entry and no
history changes; BAD_INSTANCE, then BAD_INDEX. -/
def Obligations.CoefficientWritesStoreVerbatim : Prop :=
  ∀ (s : State) (k n : Nat) (arg : Word),
    (∀ f, k < s.cfg.nfir → n < s.cfg.firN k → s.fir[k]? = some f → exec (.firSettap k n arg) s =
      .next { s with fir := s.fir.set k { f with taps := f.taps.set n arg }, res := 0#32 }) ∧
    (∀ f, k < s.cfg.niir → n < s.cfg.iirLen k → s.iir[k]? = some f → exec (.iirSetnum k n arg) s =
      .next { s with iir := s.iir.set k { f with num := f.num.set n arg }, res := 0#32 }) ∧
    (∀ f, k < s.cfg.niir → n < s.cfg.iirLen k → s.iir[k]? = some f → exec (.iirSetden k n arg) s =
      .next { s with iir := s.iir.set k { f with den := f.den.set n arg }, res := 0#32 }) ∧
    (s.cfg.nfir ≤ k → Faults (.firSettap k n arg) 3 s) ∧
    (s.cfg.niir ≤ k → Faults (.iirSetnum k n arg) 3 s ∧ Faults (.iirSetden k n arg) 3 s) ∧
    (k < s.cfg.nfir → s.cfg.firN k ≤ n → Faults (.firSettap k n arg) 4 s) ∧
    (k < s.cfg.niir → s.cfg.iirLen k ≤ n → Faults (.iirSetnum k n arg) 4 s ∧ Faults (.iirSetden k n arg) 4 s) ∧
    Encodes (.firSettap k n arg) 1 1 k n s ∧ Encodes (.iirSetnum k n arg) 2 1 k n s ∧ Encodes (.iirSetden k n arg) 2 2 k n s

/-- DCR.SETALPHA and NG.SETCFG (47_dsp_conditioning.md R291, R301): ARG is stored verbatim in the named register, and the
stream state does not change. -/
def Obligations.ConditioningConfigurationStoresVerbatim : Prop :=
  ∀ (s : State) (k n : Nat) (arg : Word),
    (∀ d, k < s.cfg.ndcr → s.dcr[k]? = some d → exec (.dcrSetalpha k arg) s =
      .next { s with dcr := s.dcr.set k { d with alpha := arg }, res := 0#32 }) ∧
    (∀ g, k < s.cfg.nng → s.ng[k]? = some g →
      exec (.ngSetcfg k 0 arg) s = .next { s with ng := s.ng.set k { g with thresh := arg }, res := 0#32 } ∧
      exec (.ngSetcfg k 1 arg) s = .next { s with ng := s.ng.set k { g with attack := arg }, res := 0#32 } ∧
      exec (.ngSetcfg k 2 arg) s = .next { s with ng := s.ng.set k { g with release := arg }, res := 0#32 } ∧
      exec (.ngSetcfg k 3 arg) s = .next { s with ng := s.ng.set k { g with holdtime := arg }, res := 0#32 } ∧
      exec (.ngSetcfg k 4 arg) s = .next { s with ng := s.ng.set k { g with sampletime := arg }, res := 0#32 }) ∧
    (s.cfg.ndcr ≤ k → Faults (.dcrSetalpha k arg) 3 s) ∧ (s.cfg.nng ≤ k → Faults (.ngSetcfg k n arg) 3 s) ∧
    (k < s.cfg.nng → 4 < n → Faults (.ngSetcfg k n arg) 4 s) ∧
    Encodes (.dcrSetalpha k arg) 8 1 k 0 s ∧ Encodes (.ngSetcfg k n arg) 9 1 k n s

/-- FIR.RDTAP, FIR.RDHIST, FIR.RDN (41_fir_iir.md R166, R167, R168). -/
def Obligations.FirReadback : Prop :=
  ∀ (s : State) (k n : Nat) (arg : Word),
    (∀ f v, k < s.cfg.nfir → n < s.cfg.firN k → s.fir[k]? = some f → f.taps[n]? = some v →
      exec (.firRdtap k n arg) s = .next { s with res := v }) ∧
    (∀ f v, k < s.cfg.nfir → n < s.cfg.firN k → s.fir[k]? = some f → f.hist[n]? = some v →
      exec (.firRdhist k n arg) s = .next { s with res := v }) ∧
    (∀ taps, s.cfg.firNtaps[k]? = some taps →
      exec (.firRdn k arg) s = .next { s with res := BitVec.ofNat 32 taps }) ∧
    (s.cfg.nfir ≤ k → Faults (.firRdtap k n arg) 3 s ∧ Faults (.firRdhist k n arg) 3 s ∧ Faults (.firRdn k arg) 3 s) ∧
    (k < s.cfg.nfir → s.cfg.firN k ≤ n → Faults (.firRdtap k n arg) 4 s ∧ Faults (.firRdhist k n arg) 4 s) ∧
    Encodes (.firRdtap k n arg) 1 4 k n s ∧ Encodes (.firRdhist k n arg) 1 5 k n s ∧ Encodes (.firRdn k arg) 1 6 k 0 s

/-- IIR.RDNUM, IIR.RDDEN, IIR.RDHIST, IIR.RDN (41_fir_iir.md R176 to R179). W[i] is read for 1 <= i <= N-1 only. -/
def Obligations.IirReadback : Prop :=
  ∀ (s : State) (k n : Nat) (arg : Word),
    (∀ f v, k < s.cfg.niir → n < s.cfg.iirLen k → s.iir[k]? = some f → f.num[n]? = some v →
      exec (.iirRdnum k n arg) s = .next { s with res := v }) ∧
    (∀ f v, k < s.cfg.niir → n < s.cfg.iirLen k → s.iir[k]? = some f → f.den[n]? = some v →
      exec (.iirRdden k n arg) s = .next { s with res := v }) ∧
    (∀ f v i, k < s.cfg.niir → i + 1 < s.cfg.iirLen k → s.iir[k]? = some f → f.w[i]? = some v →
      exec (.iirRdhist k (i + 1) arg) s = .next { s with res := v }) ∧
    (∀ len, s.cfg.iirN[k]? = some len → exec (.iirRdn k arg) s = .next { s with res := BitVec.ofNat 32 len }) ∧
    (s.cfg.niir ≤ k → Faults (.iirRdnum k n arg) 3 s ∧ Faults (.iirRdden k n arg) 3 s ∧
      Faults (.iirRdhist k n arg) 3 s ∧ Faults (.iirRdn k arg) 3 s) ∧
    (k < s.cfg.niir → s.cfg.iirLen k ≤ n → Faults (.iirRdnum k n arg) 4 s ∧ Faults (.iirRdden k n arg) 4 s) ∧
    (k < s.cfg.niir → (n = 0 ∨ s.cfg.iirLen k ≤ n) → Faults (.iirRdhist k n arg) 4 s) ∧
    Encodes (.iirRdnum k n arg) 2 5 k n s ∧ Encodes (.iirRdden k n arg) 2 6 k n s ∧ Encodes (.iirRdhist k n arg) 2 7 k n s ∧
    Encodes (.iirRdn k arg) 2 8 k 0 s

/-- PWM.RDCOEF and PWM.RDSTATE (42_pwm.md R193, R194). -/
def Obligations.PwmReadback : Prop :=
  ∀ (s : State) (k n : Nat) (arg : Word),
    (∀ v, k < s.cfg.npwm →
      [s.cfg.pwmCoef.b0, s.cfg.pwmCoef.b1, s.cfg.pwmCoef.b2, s.cfg.pwmCoef.a1, s.cfg.pwmCoef.a2][n]? = some v →
      exec (.pwmRdcoef k n arg) s = .next { s with res := v }) ∧
    (∀ p v, k < s.cfg.npwm → s.pwm[k]? = some p → [p.u1, p.u2, p.y1, p.y2][n]? = some v →
      exec (.pwmRdstate k n arg) s = .next { s with res := v }) ∧
    (s.cfg.npwm ≤ k → Faults (.pwmRdcoef k n arg) 3 s ∧ Faults (.pwmRdstate k n arg) 3 s) ∧
    (k < s.cfg.npwm → 4 < n → Faults (.pwmRdcoef k n arg) 4 s) ∧
    (k < s.cfg.npwm → 3 < n → Faults (.pwmRdstate k n arg) 4 s) ∧
    Encodes (.pwmRdcoef k n arg) 3 2 k n s ∧ Encodes (.pwmRdstate k n arg) 3 3 k n s

/-- DCR.RDALPHA, DCR.RDSTATE, NG.RDCFG, NG.RDSTATE (47_dsp_conditioning.md R293, R294, R303, R304). -/
def Obligations.ConditioningReadback : Prop :=
  ∀ (s : State) (k n : Nat) (arg : Word),
    (∀ d, k < s.cfg.ndcr → s.dcr[k]? = some d → exec (.dcrRdalpha k arg) s = .next { s with res := d.alpha }) ∧
    (∀ d v, k < s.cfg.ndcr → s.dcr[k]? = some d → [d.u1, d.y1][n]? = some v →
      exec (.dcrRdstate k n arg) s = .next { s with res := v }) ∧
    (∀ g v, k < s.cfg.nng → s.ng[k]? = some g →
      [g.thresh, g.attack, g.release, g.holdtime, g.sampletime][n]? = some v →
      exec (.ngRdcfg k n arg) s = .next { s with res := v }) ∧
    (∀ g v, k < s.cfg.nng → s.ng[k]? = some g → [g.hold, g.sg][n]? = some v →
      exec (.ngRdstate k n arg) s = .next { s with res := v }) ∧
    (s.cfg.ndcr ≤ k → Faults (.dcrRdalpha k arg) 3 s ∧ Faults (.dcrRdstate k n arg) 3 s) ∧
    (s.cfg.nng ≤ k → Faults (.ngRdcfg k n arg) 3 s ∧ Faults (.ngRdstate k n arg) 3 s) ∧
    (k < s.cfg.ndcr → 1 < n → Faults (.dcrRdstate k n arg) 4 s) ∧
    (k < s.cfg.nng → 4 < n → Faults (.ngRdcfg k n arg) 4 s) ∧
    (k < s.cfg.nng → 1 < n → Faults (.ngRdstate k n arg) 4 s) ∧
    Encodes (.dcrRdalpha k arg) 8 3 k 0 s ∧ Encodes (.dcrRdstate k n arg) 8 4 k n s ∧ Encodes (.ngRdcfg k n arg) 9 3 k n s ∧
    Encodes (.ngRdstate k n arg) 9 4 k n s

/-- CR.GETSP, CR.RDENERGY, CR.RDCOUNT, CR.RDCURSOR, CR.RDPREV (43_clock_recovery.md R204 to R208). -/
def Obligations.ClockRecoveryReadback : Prop :=
  ∀ (s : State) (k n : Nat) (arg : Word),
    (∀ c, k < s.cfg.ncr → s.cr[k]? = some c →
      exec (.crGetsp k arg) s = .next { s with res := BitVec.ofNat 32 c.sp } ∧
      exec (.crRdcount k arg) s = .next { s with res := c.nsamp } ∧
      exec (.crRdcursor k arg) s = .next { s with res := BitVec.ofNat 32 c.cursor } ∧
      exec (.crRdprev k arg) s = .next { s with res := c.prev.signExtend 32 } ∧
      (∀ v, n < s.cfg.sps → c.energy[n]? = some v → exec (.crRdenergy k n arg) s = .next { s with res := v })) ∧
    (s.cfg.ncr ≤ k → Faults (.crGetsp k arg) 3 s ∧ Faults (.crRdcount k arg) 3 s ∧ Faults (.crRdcursor k arg) 3 s ∧
      Faults (.crRdprev k arg) 3 s ∧ Faults (.crRdenergy k n arg) 3 s) ∧
    (k < s.cfg.ncr → s.cfg.sps ≤ n → Faults (.crRdenergy k n arg) 4 s) ∧
    Encodes (.crGetsp k arg) 4 3 k 0 s ∧ Encodes (.crRdenergy k n arg) 4 4 k n s ∧ Encodes (.crRdcount k arg) 4 5 k 0 s ∧
    Encodes (.crRdcursor k arg) 4 6 k 0 s ∧ Encodes (.crRdprev k arg) 4 7 k 0 s

/-! ## The filters -/

/-- FIR.STEP and FIR.STEPF (41_fir_iir.md R163, R164, R165): the history shifts by one, the newest input at index 0, and
the result is the sum of TAP[i] times X[i] from index 0 upward, started at +0.0, each operation rounded. -/
def Obligations.FirStepsConvolveTheHistory : Prop :=
  ∀ (s : State) (k : Nat) (arg : Word),
    (∀ f, s.fir[k]? = some f → k < s.cfg.nfir → 0 < s.cfg.firN k → f.taps.length = s.cfg.firN k → f.hist.length = s.cfg.firN k →
      (∃ h, ShiftedIn arg f.hist h ∧ exec (.firStepf k arg) s =
        .next { s with fir := s.fir.set k { f with hist := h }, res := firAcc f.taps h (s.cfg.firN k) }) ∧
      (∃ h, ShiftedIn (f32OfInt (sampleOf arg)) f.hist h ∧ exec (.firStep k arg) s =
        .next { s with fir := s.fir.set k { f with hist := h },
                       res := sampleWord (cvtS16 (firAcc f.taps h (s.cfg.firN k))) })) ∧
    (s.cfg.nfir ≤ k → Faults (.firStep k arg) 3 s ∧ Faults (.firStepf k arg) 3 s) ∧
    Encodes (.firStep k arg) 1 2 k 0 s ∧ Encodes (.firStepf k arg) 1 3 k 0 s

/-- IIR.STEP and IIR.STEPF (41_fir_iir.md R170, R174, R175): direct form II with the accumulators over the indices 1 to
N-1 in order, w = x - ad, y = an + NUM[0] w, and w enters the history. DEN[0] is not read. -/
def Obligations.IirStepsAreDirectFormTwo : Prop :=
  ∀ (s : State) (k : Nat) (arg : Word),
    (∀ f, s.iir[k]? = some f → k < s.cfg.niir → 0 < s.cfg.iirLen k → f.num.length = s.cfg.iirLen k → f.den.length = s.cfg.iirLen k →
      f.w.length + 1 = s.cfg.iirLen k →
      (∃ h, ShiftedIn (fsub arg (iirAcc f.den f.w f.w.length)) f.w h ∧ exec (.iirStepf k arg) s =
        .next { s with iir := s.iir.set k { f with w := h },
                       res := fadd (iirAcc f.num f.w f.w.length)
                         (fmul (f.num.getD 0 0#32) (fsub arg (iirAcc f.den f.w f.w.length))) }) ∧
      (∃ h, ShiftedIn (fsub (f32OfInt (sampleOf arg)) (iirAcc f.den f.w f.w.length)) f.w h ∧ exec (.iirStep k arg) s =
        .next { s with iir := s.iir.set k { f with w := h },
                       res := sampleWord (cvtS16 (fadd (iirAcc f.num f.w f.w.length)
                         (fmul (f.num.getD 0 0#32)
                           (fsub (f32OfInt (sampleOf arg)) (iirAcc f.den f.w f.w.length))))) })) ∧
    (s.cfg.niir ≤ k → Faults (.iirStep k arg) 3 s ∧ Faults (.iirStepf k arg) 3 s) ∧
    Encodes (.iirStep k arg) 2 3 k 0 s ∧ Encodes (.iirStepf k arg) 2 4 k 0 s

/-- PWM.STEP (42_pwm.md R190, R192): y = B0 u + B1 U1 + B2 U2 - A1 Y1 - A2 Y2 in that order, the histories shift, Y1
keeps the unscaled y, and the output is 0.5 y as a sample. -/
def Obligations.PwmStepFiltersAndHalves : Prop :=
  ∀ (s : State) (k : Nat) (arg : Word),
    (∀ p y, k < s.cfg.npwm → s.pwm[k]? = some p →
      y = fsub (fsub (fadd (fadd (fmul s.cfg.pwmCoef.b0 (f32OfInt (sampleOf arg))) (fmul s.cfg.pwmCoef.b1 p.u1))
            (fmul s.cfg.pwmCoef.b2 p.u2)) (fmul s.cfg.pwmCoef.a1 p.y1)) (fmul s.cfg.pwmCoef.a2 p.y2) →
      exec (.pwmStep k arg) s =
        .next { s with pwm := s.pwm.set k ⟨f32OfInt (sampleOf arg), p.u1, y, p.y1⟩,
                       res := sampleWord (cvtS16 (fmul 0x3F000000#32 y)) }) ∧
    (s.cfg.npwm ≤ k → Faults (.pwmStep k arg) 3 s) ∧ Encodes (.pwmStep k arg) 3 1 k 0 s

/-- DCR.STEP (47_dsp_conditioning.md R292): y = (u - U1) + ALPHA Y1, and Y1 keeps y unsaturated. -/
def Obligations.DcRemovalStep : Prop :=
  ∀ (s : State) (k : Nat) (arg : Word),
    (∀ d y, k < s.cfg.ndcr → s.dcr[k]? = some d →
      y = fadd (fsub (f32OfInt (sampleOf arg)) d.u1) (fmul d.alpha d.y1) →
      exec (.dcrStep k arg) s =
        .next { s with dcr := s.dcr.set k ⟨d.alpha, f32OfInt (sampleOf arg), y⟩, res := sampleWord (cvtS16 y) }) ∧
    (s.cfg.ndcr ≤ k → Faults (.dcrStep k arg) 3 s) ∧ Encodes (.dcrStep k arg) 8 2 k 0 s

/-- NG.STEP (47_dsp_conditioning.md R302): while HOLD is below HOLDTIME only HOLD moves; then SG is smoothed toward the
target, with RELEASE if the target is not above SG, and else with ATTACK and HOLD back to 0. The output uses the new
SG. -/
def Obligations.NoiseGateStep : Prop :=
  ∀ (s : State) (k : Nat) (arg : Word),
    (∀ g target g', k < s.cfg.nng → s.ng[k]? = some g →
      target = (if fge (f32OfInt |sampleOf arg|) g.thresh then 0x3F800000#32 else 0x00000000#32) →
      (flt g.hold g.holdtime = true → g' = { g with hold := fadd g.hold g.sampletime }) →
      (flt g.hold g.holdtime = false → fle target g.sg = true →
        g' = { g with sg := fadd target (fmul g.release (fsub g.sg target)) }) →
      (flt g.hold g.holdtime = false → fle target g.sg = false →
        g' = { g with sg := fadd target (fmul g.attack (fsub g.sg target)), hold := 0x00000000#32 }) →
      exec (.ngStep k arg) s =
        .next { s with ng := s.ng.set k g', res := sampleWord (cvtS16 (fmul (f32OfInt (sampleOf arg)) g'.sg)) }) ∧
    (s.cfg.nng ≤ k → Faults (.ngStep k arg) 3 s) ∧ Encodes (.ngStep k arg) 9 2 k 0 s

/-! ## Clock recovery -/

/-- CR.SAMPLE (43_clock_recovery.md R201): the delta to the previous sample, negated if the two sum below 0, is added to
the bin at CURSOR with 32-bit wrap; CURSOR advances modulo SPS; PREV and NSAMP follow. -/
def Obligations.ClockRecoverySample : Prop :=
  ∀ (s : State) (k : Nat) (arg : Word),
    (∀ c e e', k < s.cfg.ncr → s.cr[k]? = some c → c.energy[c.cursor]? = some e →
      e' = BitVec.ofInt 32 (e.toInt +
        (if sampleOf arg + c.prev.toInt < 0 then c.prev.toInt - sampleOf arg else sampleOf arg - c.prev.toInt)) →
      exec (.crSample k arg) s =
        .next { s with
          cr := s.cr.set k ⟨c.energy.set c.cursor e', BitVec.ofInt 16 (sampleOf arg), (c.cursor + 1) % s.cfg.sps,
                            BitVec.ofNat 32 (c.nsamp.toNat + 1), c.sp⟩,
          res := 0#32 }) ∧
    (s.cfg.ncr ≤ k → Faults (.crSample k arg) 3 s) ∧ Encodes (.crSample k arg) 4 1 k 0 s

/-- CR.UPDATE (43_clock_recovery.md R202, R203): nothing but RES changes when NSAMP is 0; else SP is one before the first
index of negative energy after a positive one, or SPS - 1 if there is none, the bins and NSAMP become 0, and CURSOR and
PREV stay. A found crossing is never index 0. -/
def Obligations.ClockRecoveryUpdate : Prop :=
  ∀ (s : State) (k : Nat) (arg : Word),
    (∀ c, k < s.cfg.ncr → s.cr[k]? = some c → c.energy.length = s.cfg.sps →
      (c.nsamp = 0#32 → exec (.crUpdate k arg) s = .next { s with res := 0#32 }) ∧
      (c.nsamp ≠ 0#32 →
        ∃ sp, exec (.crUpdate k arg) s =
            .next { s with
              cr := s.cr.set k ⟨List.replicate s.cfg.sps 0#32, c.prev, c.cursor, 0#32, sp⟩, res := 0#32 } ∧
          (∀ i, FirstCrossing c.energy i → sp + 1 = i ∧ sp + 2 ≤ s.cfg.sps) ∧
          ((∀ i, ¬ CrossesAt c.energy i) → sp = s.cfg.sps - 1))) ∧
    (s.cfg.ncr ≤ k → Faults (.crUpdate k arg) 3 s) ∧ Encodes (.crUpdate k arg) 4 2 k 0 s

/-! ## PRBS9 -/

/-- PRBS.GEN (44_prbs9.md R220, R221): the feedback bit v[8] xor v[4] is returned and enters at bit 0. -/
def Obligations.PrbsGenShiftsInTheFeedback : Prop :=
  ∀ (s : State) (k : Nat) (arg : Word),
    (∀ p, k < s.cfg.nprbs → s.prbs[k]? = some p →
      exec (.prbsGen k arg) s =
        .next { s with prbs := s.prbs.set k { p with lfsr := shift p.lfsr (fb p.lfsr) },
                       res := BitVec.ofNat 32 (fb p.lfsr) }) ∧
    (s.cfg.nprbs ≤ k → Faults (.prbsGen k arg) 3 s) ∧ Encodes (.prbsGen k arg) 5 1 k 0 s

/-- PRBS.SYNC (44_prbs9.md R223): the incoming bit enters; a mismatch with the feedback bit zeroes SCNT and keeps LOCKED;
a match counts modulo 256 and sets LOCKED at 18; the result is LOCKED after the update. -/
def Obligations.PrbsSyncCountsAndLocks : Prop :=
  ∀ (s : State) (k : Nat) (arg : Word),
    (∀ p p', k < s.cfg.nprbs → s.prbs[k]? = some p → p'.lfsr = shift p.lfsr (bitOf arg) →
      (bitOf arg ≠ fb p.lfsr → p'.scnt = 0#8 ∧ p'.locked = p.locked) →
      (bitOf arg = fb p.lfsr → p'.scnt = BitVec.ofNat 8 (p.scnt.toNat + 1) ∧
        (p'.locked = true ↔ (p.locked = true ∨ (p.scnt.toNat + 1) % 256 = 18))) →
      exec (.prbsSync k arg) s =
        .next { s with prbs := s.prbs.set k p', res := if p'.locked then 1#32 else 0#32 }) ∧
    (s.cfg.nprbs ≤ k → Faults (.prbsSync k arg) 3 s) ∧ Encodes (.prbsSync k arg) 5 2 k 0 s

/-- PRBS.VALIDATE and PRBS.RDSTATE (44_prbs9.md R224, R225): unlocked, the result is 0 and nothing advances; locked, the
register advances with the predicted bit and the result says whether ARG[0] agrees. RDSTATE packs LOCKED, SCNT, LFSR. -/
def Obligations.PrbsValidatePredictsAndRdstatePacks : Prop :=
  ∀ (s : State) (k : Nat) (arg : Word),
    (∀ p, k < s.cfg.nprbs → s.prbs[k]? = some p → p.locked = false →
      exec (.prbsValidate k arg) s = .next { s with res := 0#32 }) ∧
    (∀ p, k < s.cfg.nprbs → s.prbs[k]? = some p → p.locked = true →
      exec (.prbsValidate k arg) s =
        .next { s with prbs := s.prbs.set k { p with lfsr := shift p.lfsr (fb p.lfsr) },
                       res := if fb p.lfsr = bitOf arg then 1#32 else 0#32 }) ∧
    (∀ p, k < s.cfg.nprbs → s.prbs[k]? = some p →
      exec (.prbsRdstate k arg) s =
        .next { s with res := BitVec.ofNat 32 ((if p.locked then 2 ^ 24 else 0) + 2 ^ 16 * p.scnt.toNat + p.lfsr.toNat) }) ∧
    (s.cfg.nprbs ≤ k → Faults (.prbsValidate k arg) 3 s ∧ Faults (.prbsRdstate k arg) 3 s) ∧
    Encodes (.prbsValidate k arg) 5 3 k 0 s ∧ Encodes (.prbsRdstate k arg) 5 4 k 0 s

/-- Self-synchronisation (44_prbs9.md R226, first item): after nine PRBS.SYNC commands LFSR holds the nine bits fed, the
last in bit 0, whatever it held before. -/
def Obligations.NineSyncsFillTheRegister : Prop :=
  ∀ (s : State) (k : Nat) (p : PrbsInst) (args : List Word), k < s.cfg.nprbs → s.prbs[k]? = some p →
    args.length = 9 →
    ∃ t p', runAll (args.map (Instr.prbsSync k)) s = some t ∧ t.prbs[k]? = some p' ∧
      ∀ j a, args[j]? = some a → p'.lfsr.getLsbD (8 - j) = a.getLsbD 0

/-- The generator's period from seed 1 is 511 (44_prbs9.md R221): LFSR is 1 again after 511 PRBS.GEN commands and not
before. -/
def Obligations.PrbsPeriodIs511 : Prop :=
  ∀ (s : State) (k : Nat) (p : PrbsInst) (arg : Word) (m : Nat), k < s.cfg.nprbs → s.prbs[k]? = some p →
    p.lfsr = 1#9 → 0 < m → m ≤ 511 →
    ∃ t p', runAll (List.replicate m (Instr.prbsGen k arg)) s = some t ∧ t.prbs[k]? = some p' ∧
      (p'.lfsr = 1#9 ↔ m = 511)

/-- Sticky lock (44_prbs9.md R226, third item): no step clears LOCKED unless its event is PRBS.RESET of that entry,
CTRL.RSTALL or the reset input. The list of host events is the model's choice (log 4). -/
def Obligations.LockIsSticky : Prop :=
  ∀ (s : State) (c : Command) (rest : List HostEvent) (k : Nat) (p : PrbsInst),
    s.issue = .command c :: rest → s.prbs[k]? = some p → p.locked = true →
    decode c ≠ .ok (.ctrlRstall c.arg) → decode c ≠ .ok (.prbsReset k c.arg) →
    ∃ t p', step s = .next t ∧ t.prbs[k]? = some p' ∧ p'.locked = true

/-! ## Golay -/

/-- GOLAY.CSUM and GOLAY.ENC (45_golay.md R242, R243), for every encode table: bit i of the parity is the XOR over j of
v[j] and GE[j][i]; the codeword is the data followed by the parity. -/
def Obligations.GolayEncodesSystematically : Prop :=
  ∀ (s : State) (arg : Word),
    ∃ p : BitVec 12, IsProduct s.cfg.golayE (arg.setWidth 12) p ∧
      exec (.golayCsum arg) s = .next { s with res := BitVec.ofNat 32 p.toNat } ∧
      exec (.golayEnc arg) s =
        .next { s with res := BitVec.ofNat 32 (arg.toNat % 2 ^ 12 * 2 ^ 12 + p.toNat) } ∧
      Encodes (.golayCsum arg) 6 0 0 0 s ∧ Encodes (.golayEnc arg) 6 1 0 0 s

/-- GOLAY.DETECT and GOLAY.DECODE (45_golay.md R241, R244, R245, R246), for every table of twelve entries: the five
stages in order on the syndrome and the inverse syndrome, the decode table being the transpose; DECODE answers the
corrected data or the sentinel. -/
def Obligations.GolayDetectFollowsTheStages : Prop :=
  ∀ (s : State) (arg : Word) (gd : List (BitVec 12)) (par inv : BitVec 12),
    s.cfg.golayE.length = 12 → IsTranspose s.cfg.golayE gd →
    IsProduct s.cfg.golayE (arg.extractLsb' 12 12) par → IsProduct gd (arg.setWidth 12 ^^^ par) inv →
    exec (.golayDetect arg) s =
      .next { s with res := detectStages s.cfg.golayE gd (arg.setWidth 12 ^^^ par) inv } ∧
    exec (.golayDecode arg) s =
      .next { s with res :=
        if detectStages s.cfg.golayE gd (arg.setWidth 12 ^^^ par) inv = 0xFFFFFFFF#32 then 0xFFFFFFFF#32
        else ((arg ^^^ detectStages s.cfg.golayE gd (arg.setWidth 12 ^^^ par) inv).extractLsb' 12 12).setWidth 32 } ∧
    Encodes (.golayDetect arg) 6 2 0 0 s ∧ Encodes (.golayDecode arg) 6 3 0 0 s

/-- The DEFAULT table, presumed (log 3) (45_golay.md R247 items 1 and 2): the transpose inverts the encode table, and every nonzero
codeword has weight at least 8. -/
def Obligations.GolayDefaultTableIsLegal : Prop := GolayLegal Config.defaultGolayE

/-- Error correction (45_golay.md R247 item 4): a codeword of the DEFAULT table with at most three wrong bits is
detected exactly and decoded to its data, whatever the eight high bits of ARG. That the DEFAULT table is this one is
presumed (log 3). -/
def Obligations.GolayCorrectsUpToThreeErrors : Prop :=
  ∀ (s : State) (v : BitVec 12) (e : BitVec 24) (arg : Word), s.cfg.golayE = Config.defaultGolayE →
    weight e ≤ 3 → arg.setWidth 24 = codeword Config.defaultGolayE v ^^^ e →
    exec (.golayDetect arg) s = .next { s with res := e.setWidth 32 } ∧
    exec (.golayDecode arg) s = .next { s with res := v.setWidth 32 }

/-- A mask that `detect` answers has weight at most 3 and leads to a codeword, for every table of twelve entries that its
transpose inverts (45_golay.md R240, R244, R247 item 1). -/
def Obligations.GolayMaskLeadsToACodeword : Prop :=
  ∀ (ge : List (BitVec 12)) (c m : BitVec 24), ge.length = 12 → (∀ v : BitVec 12, mulD ge (csum ge v) = v) →
    detect ge c = some m → weight m ≤ 3 ∧ ∃ v : BitVec 12, c ^^^ m = codeword ge v

/-! ## The puncture engine -/

/-- PUNC.WRIN, PUNC.RDIN, PUNC.WROUT, PUNC.RDOUT (46_puncture.md R270 to R273): one byte is written or read, every other
byte stays; byte a carries the stream bits 8a to 8a+7, MSB first (20_memory.md R93), in the accesses of the runs too;
BAD_INDEX at PBUF_BYTES and above; INST must be 0. -/
def Obligations.BufferBytesAreReadAndWritten : Prop :=
  ∀ (s : State) (n : Nat) (arg : Word), s.inbuf.wf → s.outbuf.wf →
    (n < s.cfg.pbufBytes →
      (∃ m, exec (.puncWrin n arg) s = .next { s with inbuf := m, res := 0#32 } ∧
        ∀ a, readByte m a = if a = n then arg.setWidth 8 else readByte s.inbuf a) ∧
      exec (.puncRdin n arg) s = .next { s with res := BitVec.ofNat 32 (readByte s.inbuf n).toNat } ∧
      (∃ m, exec (.puncWrout n arg) s = .next { s with outbuf := m, res := 0#32 } ∧
        ∀ a, readByte m a = if a = n then arg.setWidth 8 else readByte s.outbuf a) ∧
      exec (.puncRdout n arg) s = .next { s with res := BitVec.ofNat 32 (readByte s.outbuf n).toNat }) ∧
    (s.cfg.pbufBytes ≤ n → Faults (.puncWrin n arg) 4 s ∧ Faults (.puncRdin n arg) 4 s ∧ Faults (.puncWrout n arg) 4 s ∧
      Faults (.puncRdout n arg) 4 s) ∧
    (∀ (m : Memory) (i : Nat), getBit m i = (readByte m (i / 8)).getLsbD (7 - i % 8)) ∧
    (∀ (m : Memory) (i j : Nat) (b : Bool), m.wf →
      streamBit (setBit m i b) j = if j = i then b else streamBit m j) ∧
    (∀ t i, n < s.cfg.pbufBytes → exec (.puncWrin n arg) s = .next t → i < 8 →
      streamBit t.inbuf (8 * n + i) = arg.getLsbD (7 - i)) ∧
    Encodes (.puncWrin n arg) 7 0 0 n s ∧ Encodes (.puncRdin n arg) 7 1 0 n s ∧ Encodes (.puncWrout n arg) 7 2 0 n s ∧
    Encodes (.puncRdout n arg) 7 3 0 n s

/-- PUNC.SETPAT, PUNC.RDPAT, PUNC.SETPLEN, PUNC.RDPLEN (46_puncture.md R274 to R277). -/
def Obligations.PatternsAreReadAndWritten : Prop :=
  ∀ (s : State) (slot n : Nat) (arg : Word),
    (∀ p, slot < s.cfg.npat → n < s.cfg.pmax → s.pat[slot]? = some p → exec (.puncSetpat slot n arg) s =
      .next { s with pat := s.pat.set slot { p with bits := p.bits.set n (arg.getLsbD 0) }, res := 0#32 }) ∧
    (∀ p b, slot < s.cfg.npat → n < s.cfg.pmax → s.pat[slot]? = some p → p.bits[n]? = some b →
      exec (.puncRdpat slot n arg) s = .next { s with res := if b then 1#32 else 0#32 }) ∧
    (∀ p, slot < s.cfg.npat → s.pat[slot]? = some p → 1 ≤ arg.toNat % 65536 → arg.toNat % 65536 ≤ s.cfg.pmax →
      exec (.puncSetplen slot arg) s =
        .next { s with pat := s.pat.set slot { p with plen := arg.toNat % 65536 }, res := 0#32 }) ∧
    (∀ p, slot < s.cfg.npat → s.pat[slot]? = some p →
      exec (.puncRdplen slot arg) s = .next { s with res := BitVec.ofNat 32 p.plen }) ∧
    (s.cfg.npat ≤ slot → Faults (.puncSetpat slot n arg) 3 s ∧ Faults (.puncRdpat slot n arg) 3 s ∧
      Faults (.puncSetplen slot arg) 3 s ∧ Faults (.puncRdplen slot arg) 3 s) ∧
    (slot < s.cfg.npat → s.cfg.pmax ≤ n → Faults (.puncSetpat slot n arg) 4 s ∧ Faults (.puncRdpat slot n arg) 4 s) ∧
    (slot < s.cfg.npat → (arg.toNat % 65536 = 0 ∨ s.cfg.pmax < arg.toNat % 65536) →
      Faults (.puncSetplen slot arg) 5 s) ∧
    Encodes (.puncSetpat slot n arg) 7 4 slot n s ∧ Encodes (.puncRdpat slot n arg) 7 5 slot n s ∧
    Encodes (.puncSetplen slot arg) 7 6 slot 0 s ∧ Encodes (.puncRdplen slot arg) 7 7 slot 0 s

/-- PUNC.PUNCT (46_puncture.md R278): with nin input bytes and nout output bytes, the kept input bits, in order, fill the
output stream from bit 0 until the input or the output ends; RES counts them; every later output bit, INBUF and the
pattern stay. BAD_ARGUMENT before BAD_CONFIG. -/
def Obligations.PunctureKeepsThePatternsBits : Prop :=
  ∀ (s : State) (slot : Nat) (arg : Word),
    (∀ p, slot < s.cfg.npat → s.pat[slot]? = some p → s.outbuf.wf → p.plen ≠ 0 →
      arg.toNat % 65536 ≤ s.cfg.pbufBytes → arg.toNat / 65536 ≤ s.cfg.pbufBytes →
      ∃ m n, exec (.puncPunct slot arg) s = .next { s with outbuf := m, res := BitVec.ofNat 32 n } ∧
        n = min (keptBefore p (8 * (arg.toNat % 65536))) (8 * (arg.toNat / 65536)) ∧
        (∀ o i, o < n → (keptPositions p (8 * (arg.toNat % 65536)))[o]? = some i →
          streamBit m o = streamBit s.inbuf i) ∧
        SameBitsFrom n s.outbuf m ∧ m.wf) ∧
    (s.cfg.npat ≤ slot → Faults (.puncPunct slot arg) 3 s) ∧
    (slot < s.cfg.npat → (s.cfg.pbufBytes < arg.toNat % 65536 ∨ s.cfg.pbufBytes < arg.toNat / 65536) →
      Faults (.puncPunct slot arg) 5 s) ∧
    (∀ p, slot < s.cfg.npat → s.pat[slot]? = some p → p.plen = 0 → arg.toNat % 65536 ≤ s.cfg.pbufBytes →
      arg.toNat / 65536 ≤ s.cfg.pbufBytes → Faults (.puncPunct slot arg) 6 s) ∧
    Encodes (.puncPunct slot arg) 7 8 slot 0 s

/-- PUNC.DEPUNCT (46_puncture.md R279): with nbits input bits and nout output bytes, output position o receives the next
input bit where the pattern keeps and 0 where it drops, until the output is full or a kept position finds no input bit;
RES packs the bits consumed and the bits written; every later output bit, INBUF and the pattern stay. -/
def Obligations.DepunctureInsertsErasures : Prop :=
  ∀ (s : State) (slot : Nat) (arg : Word),
    (∀ p, slot < s.cfg.npat → s.pat[slot]? = some p → s.outbuf.wf → p.plen ≠ 0 →
      arg.toNat % 65536 ≤ 8 * s.cfg.pbufBytes → arg.toNat / 65536 ≤ s.cfg.pbufBytes →
      ∃ m w, exec (.puncDepunct slot arg) s =
          .next { s with outbuf := m, res := BitVec.ofNat 32 (keptBefore p w % 65536 * 65536 + w % 65536) } ∧
        w ≤ 8 * (arg.toNat / 65536) ∧
        (∀ o, o < w → keeps p o = true → keptBefore p o < arg.toNat % 65536) ∧
        (w < 8 * (arg.toNat / 65536) → keeps p w = true ∧ arg.toNat % 65536 ≤ keptBefore p w) ∧
        (∀ o, o < w → streamBit m o = (keeps p o && streamBit s.inbuf (keptBefore p o))) ∧
        SameBitsFrom w s.outbuf m ∧ m.wf) ∧
    (s.cfg.npat ≤ slot → Faults (.puncDepunct slot arg) 3 s) ∧
    (slot < s.cfg.npat → (8 * s.cfg.pbufBytes < arg.toNat % 65536 ∨ s.cfg.pbufBytes < arg.toNat / 65536) →
      Faults (.puncDepunct slot arg) 5 s) ∧
    (∀ p, slot < s.cfg.npat → s.pat[slot]? = some p → p.plen = 0 → arg.toNat % 65536 ≤ 8 * s.cfg.pbufBytes →
      arg.toNat / 65536 ≤ s.cfg.pbufBytes → Faults (.puncDepunct slot arg) 6 s) ∧
    Encodes (.puncDepunct slot arg) 7 9 slot 0 s

/-- The inverse property (46_puncture.md R281): puncture nin bytes with room for every kept bit, copy the output bytes
into INBUF, and depuncture the n bits to nin bytes: all n bits are consumed, 8 nin bits are written, and each equals the
original input bit where the pattern keeps and 0 where it drops. -/
def Obligations.DepunctureUndoesPuncture : Prop :=
  ∀ (s u t t' : State) (slot n : Nat) (p : PatSlot) (arg arg' : Word),
    Inv s → Inv u → u.cfg = s.cfg → slot < s.cfg.npat → s.pat[slot]? = some p → u.pat[slot]? = some p → p.plen ≠ 0 →
    (∃ i, i < p.plen ∧ p.bits[i]? = some true) →
    1 ≤ arg.toNat % 65536 → arg.toNat % 65536 ≤ s.cfg.pbufBytes → arg.toNat / 65536 ≤ s.cfg.pbufBytes →
    keptBefore p (8 * (arg.toNat % 65536)) ≤ 8 * (arg.toNat / 65536) →
    exec (.puncPunct slot arg) s = .next t → n = t.res.toNat →
    (∀ a, a < (n + 7) / 8 → readByte u.inbuf a = readByte t.outbuf a) →
    arg'.toNat % 65536 = n → arg'.toNat / 65536 = arg.toNat % 65536 →
    exec (.puncDepunct slot arg') u = .next t' →
    t'.res.toNat = n * 65536 + 8 * (arg.toNat % 65536) ∧
    ∀ i, i < 8 * (arg.toNat % 65536) → streamBit t'.outbuf i = (keeps p i && streamBit s.inbuf i)

/-! ## Format conversion -/

/-- CONV.NEG, CONV.S16TOU12 and CONV.S16TOU8 (47_dsp_conditioning.md R310, R311, R312): negation, with -32768 staying
-32768; the top 12 or 8 bits of the sample with its sign bit flipped. -/
def Obligations.NegationWrapsAndForwardConversionsBias : Prop :=
  ∀ (s : State) (arg : Word),
    (sampleOf arg ≠ -32768 → exec (.convNeg arg) s = .next { s with res := BitVec.ofInt 32 (-(sampleOf arg)) }) ∧
    (sampleOf arg = -32768 → exec (.convNeg arg) s = .next { s with res := 0xFFFF8000#32 }) ∧
    exec (.convS16tou12 arg) s =
      .next { s with res := ((arg.setWidth 16 ^^^ 0x8000#16).extractLsb' 4 12).setWidth 32 } ∧
    exec (.convS16tou8 arg) s =
      .next { s with res := ((arg.setWidth 16 ^^^ 0x8000#16).extractLsb' 8 8).setWidth 32 } ∧
    Encodes (.convNeg arg) 10 0 0 0 s ∧ Encodes (.convS16tou12 arg) 10 1 0 0 s ∧ Encodes (.convS16tou8 arg) 10 2 0 0 s

/-- CONV.U12TOS16 and CONV.U8TOS16 (47_dsp_conditioning.md R313, R314): the value shifted to the top of 16 bits with the
sign bit flipped, as a sample; and they undo the forward conversions up to the bits shifted out. -/
def Obligations.ReverseConversionsInvertTheForward : Prop :=
  ∀ (s : State) (arg : Word),
    exec (.convU12tos16 arg) s =
      .next { s with res := ((arg.setWidth 12 ++ 0#4 : BitVec 16) ^^^ 0x8000#16).signExtend 32 } ∧
    exec (.convU8tos16 arg) s =
      .next { s with res := ((arg.setWidth 8 ++ 0#8 : BitVec 16) ^^^ 0x8000#16).signExtend 32 } ∧
    (∀ t u, exec (.convS16tou12 arg) s = .next t → exec (.convU12tos16 t.res) t = .next u →
      u.res = (arg.setWidth 16 &&& 0xFFF0#16).signExtend 32) ∧
    (∀ t u, exec (.convS16tou8 arg) s = .next t → exec (.convU8tos16 t.res) t = .next u →
      u.res = (arg.setWidth 16 &&& 0xFF00#16).signExtend 32) ∧
    Encodes (.convU12tos16 arg) 10 3 0 0 s ∧ Encodes (.convU8tos16 arg) 10 4 0 0 s

/-! ## Isolation of the banks -/

/-- A command leaves every bank entry that it does not name as it was, but for CTRL.RSTALL; and the PUNC buffers and
patterns change under PUNC commands only (60_exceptions.md R345, 70_reset_and_hazards.md R361). -/
def Obligations.CommandsWriteOnlyTheEntryTheyName : Prop :=
  ∀ (s t : State) (i : Instr) (j : Nat), (i.fields.unit, i.fields.op) ≠ (0, 1) → exec i s = .next t →
    ((i.fields.unit, i.fields.inst) ≠ (1, j) → t.fir[j]? = s.fir[j]?) ∧
    ((i.fields.unit, i.fields.inst) ≠ (2, j) → t.iir[j]? = s.iir[j]?) ∧
    ((i.fields.unit, i.fields.inst) ≠ (3, j) → t.pwm[j]? = s.pwm[j]?) ∧
    ((i.fields.unit, i.fields.inst) ≠ (4, j) → t.cr[j]? = s.cr[j]?) ∧
    ((i.fields.unit, i.fields.inst) ≠ (5, j) → t.prbs[j]? = s.prbs[j]?) ∧
    ((i.fields.unit, i.fields.inst) ≠ (8, j) → t.dcr[j]? = s.dcr[j]?) ∧
    ((i.fields.unit, i.fields.inst) ≠ (9, j) → t.ng[j]? = s.ng[j]?) ∧
    (i.fields.unit ≠ 7 → t.inbuf = s.inbuf ∧ t.outbuf = s.outbuf ∧ t.pat = s.pat)

/-- What a command of a banked unit answers and does to the entry it names depends on the parameters and on that entry of
its own bank alone: from two states that agree on those, whatever else differs, it gives the same RES and the same entry
(60_exceptions.md R345). -/
def Obligations.CommandsReadOnlyTheEntryTheyName : Prop :=
  ∀ (s t s' t' : State) (i : Instr), s'.cfg = s.cfg → exec i s = .next t → exec i s' = .next t' →
    (i.fields.unit = 1 → s'.fir[i.fields.inst]? = s.fir[i.fields.inst]? →
      t'.res = t.res ∧ t'.fir[i.fields.inst]? = t.fir[i.fields.inst]?) ∧
    (i.fields.unit = 2 → s'.iir[i.fields.inst]? = s.iir[i.fields.inst]? →
      t'.res = t.res ∧ t'.iir[i.fields.inst]? = t.iir[i.fields.inst]?) ∧
    (i.fields.unit = 3 → s'.pwm[i.fields.inst]? = s.pwm[i.fields.inst]? →
      t'.res = t.res ∧ t'.pwm[i.fields.inst]? = t.pwm[i.fields.inst]?) ∧
    (i.fields.unit = 4 → s'.cr[i.fields.inst]? = s.cr[i.fields.inst]? →
      t'.res = t.res ∧ t'.cr[i.fields.inst]? = t.cr[i.fields.inst]?) ∧
    (i.fields.unit = 5 → s'.prbs[i.fields.inst]? = s.prbs[i.fields.inst]? →
      t'.res = t.res ∧ t'.prbs[i.fields.inst]? = t.prbs[i.fields.inst]?) ∧
    (i.fields.unit = 8 → s'.dcr[i.fields.inst]? = s.dcr[i.fields.inst]? →
      t'.res = t.res ∧ t'.dcr[i.fields.inst]? = t.dcr[i.fields.inst]?) ∧
    (i.fields.unit = 9 → s'.ng[i.fields.inst]? = s.ng[i.fields.inst]? →
      t'.res = t.res ∧ t'.ng[i.fields.inst]? = t.ng[i.fields.inst]?)

/-! ## Binary32 -/

/-- `fadd` of finite numbers is the exact sum rounded once to nearest even, where the sum does not overflow
(00_scope.md R13). The overflow threshold is presumed from IEEE 754 (log 9). -/
def Obligations.AdditionRoundsToNearestEven : Prop :=
  ∀ a b : F32, isFinite a = true → isFinite b = true → NoOverflow (val a + val b) 1 →
    NearestEven (fadd a b) (val a + val b) 1

/-- `fmul` of finite numbers is the exact product, in units of 2^-298, rounded once to nearest even, where it does not
overflow (00_scope.md R13). The overflow threshold is presumed from IEEE 754 (log 9). -/
def Obligations.MultiplicationRoundsToNearestEven : Prop :=
  ∀ a b : F32, isFinite a = true → isFinite b = true → NoOverflow (val a * val b) (2 ^ 149) →
    NearestEven (fmul a b) (val a * val b) (2 ^ 149)

/-- The special operands and results (00_scope.md R13; what R13 leaves to IEEE 754 is log 9 and log 10): NaN in, NaN out,
always 0x7FC00000; infinities, and the invalid operations on them; the sign of a zero sum and of a product; subtraction
adds the negation; overflow gives the infinity of the exact result's sign. -/
def Obligations.SpecialOperandsFollowTheStandard : Prop :=
  ∀ a b : F32,
    (isNaN a = true ∨ isNaN b = true →
      fadd a b = 0x7FC00000#32 ∧ fsub a b = 0x7FC00000#32 ∧ fmul a b = 0x7FC00000#32) ∧
    (isNaN (fadd a b) = true → fadd a b = 0x7FC00000#32) ∧
    (isNaN (fsub a b) = true → fsub a b = 0x7FC00000#32) ∧
    (isNaN (fmul a b) = true → fmul a b = 0x7FC00000#32) ∧
    (isInf a = true → isInf b = true → fadd a b = if a = b then a else 0x7FC00000#32) ∧
    (isInf a = true → isFinite b = true → fadd a b = a ∧ fadd b a = a) ∧
    (isInf a = true → isFinite b = true → val b = 0 → fmul a b = 0x7FC00000#32 ∧ fmul b a = 0x7FC00000#32) ∧
    (isInf a = true → isNaN b = false → val b ≠ 0 →
      fmul a b = (if a.getLsbD 31 = b.getLsbD 31 then 0x7F800000#32 else 0xFF800000#32) ∧ fmul b a = fmul a b) ∧
    (isFinite a = true → isFinite b = true → val a + val b = 0 →
      fadd a b = if a = 0x80000000#32 ∧ b = 0x80000000#32 then 0x80000000#32 else 0x00000000#32) ∧
    (isNaN (fmul a b) = false → (fmul a b).getLsbD 31 = (a.getLsbD 31 ^^ b.getLsbD 31)) ∧
    fsub a b = fadd a (b ^^^ 0x80000000#32) ∧
    (isFinite a = true → isFinite b = true → ¬ NoOverflow (val a + val b) 1 →
      fadd a b = if val a + val b < 0 then 0xFF800000#32 else 0x7F800000#32) ∧
    (isFinite a = true → isFinite b = true → ¬ NoOverflow (val a * val b) (2 ^ 149) →
      fmul a b = if val a * val b < 0 then 0xFF800000#32 else 0x7F800000#32)

/-- The comparisons (00_scope.md R14): false on a NaN; +0.0 and -0.0 equal; otherwise the order of the patterns, reversed
below zero. -/
def Obligations.ComparisonsOrderThePatterns : Prop :=
  ∀ a b : F32,
    ((isNaN a = true ∨ isNaN b = true) → flt a b = false ∧ fle a b = false ∧ fge a b = false) ∧
    (isNaN a = false → isNaN b = false →
      (flt a b = true ↔
        (a.toNat < 2 ^ 31 ∧ b.toNat < 2 ^ 31 ∧ a.toNat < b.toNat) ∨
        (2 ^ 31 ≤ a.toNat ∧ 2 ^ 31 ≤ b.toNat ∧ b.toNat < a.toNat) ∨
        (2 ^ 31 ≤ a.toNat ∧ b.toNat < 2 ^ 31 ∧ ¬ (a.toNat = 2 ^ 31 ∧ b.toNat = 0))) ∧
      fle a b = !flt b a ∧ fge a b = !flt a b)

/-- The sample conversions (00_scope.md R15): integers up to 65536 in magnitude convert exactly; a finite pattern is
truncated toward zero and clamped; NaN gives 0, +infinity 32767 and -infinity -32768. -/
def Obligations.SampleConversionsAreExactAndSaturate : Prop :=
  (∀ i : Int, -65536 ≤ i → i ≤ 65536 →
    isFinite (f32OfInt i) = true ∧ val (f32OfInt i) = i * 2 ^ 149 ∧ (i = 0 → f32OfInt i = 0x00000000#32)) ∧
  (∀ f : F32, isFinite f = true →
    cvtS16 f = max (-32768) (min 32767 ((val f).tdiv (2 ^ 149)))) ∧
  (∀ f : F32, isNaN f = true → cvtS16 f = 0) ∧
  cvtS16 0x7F800000#32 = 32767 ∧ cvtS16 0xFF800000#32 = -32768
end

