-- ==== Sys2Proof/Laws/Binary32.lean ====
section
/-! SUPPORT. Rounding once to nearest even: what `nearestEven` and `roundMag` answer, when they overflow, and what a
sign changes. -/

namespace Sys2Proof.Machine

/-- The magnitude of the pattern `e * 2^23 + q` of a significand `q` and an exponent `e` above the subnormal unit. -/
theorem mag_of_parts (e q : Nat) (hlt : e * 2 ^ 23 + q < 0x7F800000) (hq : q ≤ 2 ^ 24) (h0 : e = 0 ∨ 2 ^ 23 ≤ q) :
    mag (BitVec.ofNat 32 (e * 2 ^ 23 + q)) = q * 2 ^ e := by
  have hN : (BitVec.ofNat 32 (e * 2 ^ 23 + q)).toNat = e * 2 ^ 23 + q := by
    rw [BitVec.toNat_ofNat]; omega
  unfold mag expField fracField
  rw [hN]
  rcases Nat.lt_or_ge q (2 ^ 23) with h | h
  · obtain rfl : e = 0 := by omega
    rw [if_pos (by omega)]; omega
  · rcases Nat.lt_or_ge q (2 ^ 24) with h1 | h1
    · rw [if_neg (by omega), show (e * 2 ^ 23 + q) / 2 ^ 23 % 2 ^ 8 = e + 1 by omega,
        show (e * 2 ^ 23 + q) % 2 ^ 23 = q - 2 ^ 23 by omega, Nat.add_sub_cancel, Nat.add_sub_cancel' h]
    · have hq' : q = 2 ^ 24 := by omega
      have a1 : (e * 2 ^ 23 + q) / 2 ^ 23 % 2 ^ 8 = e + 2 := by omega
      have a2 : (e * 2 ^ 23 + q) % 2 ^ 23 = 0 := by omega
      rw [if_neg (by omega), a1, a2, hq', Nat.add_zero, ← Nat.pow_add, ← Nat.pow_add]
      congr 1
      omega

/-- Every finite magnitude is a significand below 2^24 times a power of two. -/
theorem mag_parts (f : F32) (h : isFinite f = true) : ∃ q e, q < 2 ^ 24 ∧ (e = 0 ∨ 2 ^ 23 ≤ q) ∧ e ≤ 253 ∧ mag f = q * 2 ^ e := by
  have h1 : expField f < 256 := Nat.mod_lt _ (by decide)
  have h2 : fracField f < 2 ^ 23 := Nat.mod_lt _ (by decide)
  have h3 : expField f ≠ 255 := by simpa [isFinite] using h
  unfold mag
  split
  · exact ⟨fracField f, 0, by omega, .inl rfl, by omega, by simp⟩
  · exact ⟨2 ^ 23 + fracField f, expField f - 1, by omega, .inr (by omega), by omega, rfl⟩

/-- `nearestEven` is off by at most half a unit, and even at a tie. -/
theorem nearestEven_spec (p k : Nat) :
    2 * p ≤ 2 * (nearestEven p k * 2 ^ k) + 2 ^ k ∧ 2 * (nearestEven p k * 2 ^ k) ≤ 2 * p + 2 ^ k ∧
    ((2 * p = 2 * (nearestEven p k * 2 ^ k) + 2 ^ k ∨ 2 * (nearestEven p k * 2 ^ k) = 2 * p + 2 ^ k) → nearestEven p k % 2 = 0) := by
  have hM : 0 < 2 ^ k := Nat.two_pow_pos k
  have hp := Nat.div_add_mod p (2 ^ k)
  have hb := Nat.mod_lt p hM
  unfold nearestEven
  generalize 2 ^ k = M at *
  generalize p / M = a at *
  generalize p % M = b at *
  rw [Nat.mul_comm] at hp
  split
  · rw [Nat.add_mul, Nat.one_mul]
    refine ⟨by omega, by omega, fun h => by omega⟩
  · refine ⟨by omega, by omega, fun h => by omega⟩

/-- The rounded multiple is the nearest of all multiples, and even where another is as near. -/
theorem nearestEven_best (p k c : Nat) : (|((nearestEven p k * 2 ^ k : Nat) : Int) - p| ≤ |((c * 2 ^ k : Nat) : Int) - p|) ∧
    (c ≠ nearestEven p k → |((c * 2 ^ k : Nat) : Int) - p| = |((nearestEven p k * 2 ^ k : Nat) : Int) - p| → nearestEven p k % 2 = 0) := by
  obtain ⟨h1, h2, h3⟩ := nearestEven_spec p k
  have hM : 0 < 2 ^ k := Nat.two_pow_pos k
  generalize nearestEven p k = q at *
  rcases Nat.lt_trichotomy c q with h | h | h
  · have : c * 2 ^ k + 2 ^ k ≤ q * 2 ^ k := by rw [← Nat.succ_mul]; exact Nat.mul_le_mul_right _ h
    generalize q * 2 ^ k = Q at *; generalize c * 2 ^ k = C at *; generalize 2 ^ k = M at *
    simp only [abs_eq_max_neg]
    constructor
    · omega
    · intro _ h4; apply h3; omega
  · subst h; exact ⟨Int.le_refl _, fun h => absurd rfl h⟩
  · have : q * 2 ^ k + 2 ^ k ≤ c * 2 ^ k := by rw [← Nat.succ_mul]; exact Nat.mul_le_mul_right _ h
    generalize q * 2 ^ k = Q at *; generalize c * 2 ^ k = C at *; generalize 2 ^ k = M at *
    simp only [abs_eq_max_neg]
    constructor
    · omega
    · intro _ h4; apply h3; omega

/-- The binary logarithm brackets its argument. -/
theorem log2_bounds (p : Nat) (hp : p ≠ 0) : 2 ^ Nat.log2 p ≤ p ∧ p < 2 ^ (Nat.log2 p + 1) :=
  ⟨Nat.log2_self_le hp, Nat.lt_log2_self⟩

/-- Rounding does not pass a multiple above. -/
theorem nearestEven_le_of_lt (p k n : Nat) (h : p < n * 2 ^ k) : nearestEven p k ≤ n := by
  have hM : 0 < 2 ^ k := Nat.two_pow_pos k
  have h1 : p / 2 ^ k < n := (Nat.div_lt_iff_lt_mul hM).2 h
  unfold nearestEven; split <;> omega

/-- Rounding does not pass a multiple below. -/
theorem nearestEven_ge_of_le (p k n : Nat) (h : n * 2 ^ k ≤ p) : n ≤ nearestEven p k := by
  have hM : 0 < 2 ^ k := Nat.two_pow_pos k
  have h1 : n ≤ p / 2 ^ k := (Nat.le_div_iff_mul_le hM).2 h
  unfold nearestEven; split <;> omega

/-- The rounded significand has at most 24 bits, and fewer than 24 only in the subnormal unit. -/
theorem round_shape (p u : Nat) : nearestEven p (dropBits p u) ≤ 2 ^ 24 ∧
    (dropBits p u = u ∨ (u < dropBits p u ∧ dropBits p u = Nat.log2 p - 23 ∧ 23 < Nat.log2 p ∧ 2 ^ 23 ≤ nearestEven p (dropBits p u) ∧ 2 ^ (23 + dropBits p u) ≤ p)) := by
  by_cases hp : p = 0
  · subst hp
    have : dropBits 0 u = u := by simp [dropBits]
    rw [this]
    refine ⟨?_, .inl rfl⟩
    apply nearestEven_le_of_lt; positivity
  · obtain ⟨h1, h2⟩ := log2_bounds p hp
    constructor
    · apply nearestEven_le_of_lt
      rw [← Nat.pow_add]
      apply Nat.lt_of_lt_of_le h2
      apply Nat.pow_le_pow_right (by decide)
      unfold dropBits; omega
    · rcases Nat.lt_or_ge u (dropBits p u) with h | h
      · right
        have hd : dropBits p u = Nat.log2 p - 23 := by unfold dropBits at *; omega
        have hge : 2 ^ (23 + dropBits p u) ≤ p := by
          apply Nat.le_trans _ h1
          apply Nat.pow_le_pow_right (by decide); omega
        refine ⟨h, hd, by omega, ?_, hge⟩
        apply nearestEven_ge_of_le
        rw [← Nat.pow_add]; exact hge
      · left; unfold dropBits at *; omega

/-- Magnitude and pattern of a rounding that does not overflow. -/
theorem roundMag_finite (p u : Nat) (h : (dropBits p u - u) * 2 ^ 23 + nearestEven p (dropBits p u) < 0x7F800000) :
    mag (roundMag p u) = nearestEven p (dropBits p u) * 2 ^ (dropBits p u - u) ∧ (roundMag p u).toNat = (dropBits p u - u) * 2 ^ 23 + nearestEven p (dropBits p u) := by
  obtain ⟨h1, h2⟩ := round_shape p u
  unfold roundMag
  rw [if_pos h]
  constructor
  · apply mag_of_parts _ _ h h1
    rcases h2 with h2 | ⟨_, _, _, h2, _⟩
    · left; omega
    · exact .inr h2
  · rw [BitVec.toNat_ofNat]; omega

/-- At least the bits below 2^-149 are dropped. -/
theorem dropBits_ge (p u : Nat) : u ≤ dropBits p u := by unfold dropBits; omega

/-- A rounding that does not overflow is the nearest finite magnitude, and even where another is as near (00_scope.md
R13). -/
theorem roundMag_best (p u : Nat) (h : (dropBits p u - u) * 2 ^ 23 + nearestEven p (dropBits p u) < 0x7F800000) (f : F32) (hf : isFinite f = true) :
    |((mag (roundMag p u) * 2 ^ u : Nat) : Int) - p| ≤ |((mag f * 2 ^ u : Nat) : Int) - p| ∧
    (mag f ≠ mag (roundMag p u) → |((mag f * 2 ^ u : Nat) : Int) - p| = |((mag (roundMag p u) * 2 ^ u : Nat) : Int) - p| → (roundMag p u).toNat % 2 = 0) := by
  obtain ⟨hm, hn⟩ := roundMag_finite p u h
  obtain ⟨hs1, hs2⟩ := round_shape p u
  obtain ⟨q', e', hq', h0', he', hf'⟩ := mag_parts f hf
  have hu := dropBits_ge p u
  have hR : mag (roundMag p u) * 2 ^ u = nearestEven p (dropBits p u) * 2 ^ dropBits p u := by
    rw [hm, Nat.mul_assoc, ← Nat.pow_add]; congr 2; omega
  have hpar : (roundMag p u).toNat % 2 = nearestEven p (dropBits p u) % 2 := by rw [hn]; omega
  rw [hpar, hR]
  by_cases hc : dropBits p u - u ≤ e'
  · -- multiple
    have hF : mag f * 2 ^ u = (q' * 2 ^ (e' + u - dropBits p u)) * 2 ^ dropBits p u := by
      rw [hf', Nat.mul_assoc, Nat.mul_assoc, ← Nat.pow_add, ← Nat.pow_add]; congr 2; omega
    rw [hF]
    obtain ⟨b1, b2⟩ := nearestEven_best p (dropBits p u) (q' * 2 ^ (e' + u - dropBits p u))
    refine ⟨b1, fun hne heq => b2 ?_ heq⟩
    intro heq2
    apply hne
    have : mag f * 2 ^ u = mag (roundMag p u) * 2 ^ u := by rw [hF, hR, heq2]
    exact Nat.eq_of_mul_eq_mul_right (Nat.two_pow_pos u) this
  · rcases hs2 with hs2 | ⟨g1, g2, g3, g4, g5⟩
    · omega
    · have hF : mag f * 2 ^ u < 2 ^ 23 * 2 ^ dropBits p u := by
        rw [hf']
        calc q' * 2 ^ e' * 2 ^ u < 2 ^ 24 * 2 ^ e' * 2 ^ u := by
              apply Nat.mul_lt_mul_of_pos_right _ (Nat.two_pow_pos u)
              exact Nat.mul_lt_mul_of_pos_right hq' (Nat.two_pow_pos e')
          _ = 2 ^ (24 + e' + u) := by rw [← Nat.pow_add, ← Nat.pow_add]
          _ ≤ 2 ^ (23 + dropBits p u) := Nat.pow_le_pow_right (by decide) (by omega)
          _ = _ := by rw [Nat.pow_add]
      obtain ⟨b1, b2⟩ := nearestEven_best p (dropBits p u) (2 ^ 23)
      rw [Nat.pow_add] at g5
      generalize 2 ^ 23 * 2 ^ dropBits p u = A at *
      generalize nearestEven p (dropBits p u) * 2 ^ dropBits p u = B at *
      generalize mag f * 2 ^ u = C at *
      simp only [abs_eq_max_neg] at *
      exact ⟨by omega, by omega⟩

/-- A rounding overflows exactly from (2^25 - 1) 2^252 units of 2^-149 on. -/
theorem roundMag_overflow (p u : Nat) : (dropBits p u - u) * 2 ^ 23 + nearestEven p (dropBits p u) < 0x7F800000 ↔ p < (2 ^ 25 - 1) * 2 ^ 252 * 2 ^ u := by
  by_cases hp : p = 0
  · subst hp
    have h1 : dropBits 0 u = u := by simp [dropBits]
    have h2 := nearestEven_le_of_lt 0 u 1 (by positivity)
    rw [h1]
    constructor
    · intro _
      exact Nat.mul_pos (Nat.mul_pos (by decide) (Nat.two_pow_pos _)) (Nat.two_pow_pos _)
    · intro _; omega
  · obtain ⟨h1, h2⟩ := log2_bounds p hp
    obtain ⟨hs1, hs2⟩ := round_shape p u
    obtain ⟨n1, n2, n3⟩ := nearestEven_spec p (dropBits p u)
    have hd : Nat.log2 p ≤ dropBits p u + 23 := by unfold dropBits; omega
    have hu := dropBits_ge p u
    have hlt : p < 2 ^ (dropBits p u - u + 24) * 2 ^ u := by
      rw [← Nat.pow_add]
      exact Nat.lt_of_lt_of_le h2 (Nat.pow_le_pow_right (by decide) (by omega))
    rcases Nat.lt_trichotomy (dropBits p u - u) 253 with he | he | he
    · constructor
      · intro _
        apply Nat.lt_of_lt_of_le hlt
        apply Nat.mul_le_mul_right
        apply Nat.le_trans (Nat.pow_le_pow_right (by decide) (show dropBits p u - u + 24 ≤ 24 + 252 by omega))
        rw [Nat.pow_add]
        exact Nat.mul_le_mul_right _ (by decide)
      · intro _; omega
    · have hdd : dropBits p u = 253 + u := by omega
      rw [he]
      have hpow : (2:Nat) ^ dropBits p u = 2 * (2 ^ 252 * 2 ^ u) := by
        rw [hdd, Nat.pow_add]; ring
      rw [Nat.mul_assoc (2 ^ 25 - 1)]
      rw [hpow] at n1 n2 n3
      have hW : 0 < 2 ^ 252 * 2 ^ u := by positivity
      generalize 2 ^ 252 * 2 ^ u = W at *
      generalize nearestEven p (dropBits p u) = q at *
      constructor
      · intro h
        have hq : q ≤ 2 ^ 24 - 1 := by omega
        have := Nat.mul_le_mul_right (2 * W) hq
        by_contra hc
        have hq2 : q = 2 ^ 24 - 1 := by
          by_contra hne
          have hq3 : q ≤ 2 ^ 24 - 2 := by omega
          have := Nat.mul_le_mul_right (2 * W) hq3
          norm_num at *; omega
        have hodd := n3 (by left; rw [hq2] at n1 ⊢; norm_num at *; omega)
        omega
      · intro h
        have : q < 2 ^ 24 := by
          by_contra hc
          have := Nat.mul_le_mul_right (2 * W) (show 2 ^ 24 ≤ q by omega)
          norm_num at *; omega
        omega
    · rcases hs2 with hs2 | ⟨g1, g2, g3, g4, g5⟩
      · omega
      · constructor
        · intro h; omega
        · intro h
          exfalso
          have : 2 ^ 25 * 2 ^ 252 * 2 ^ u ≤ p := by
            rw [← Nat.pow_add, ← Nat.pow_add]
            exact Nat.le_trans (Nat.pow_le_pow_right (by decide) (by omega)) g5
          have h3 : (2 ^ 25 - 1) * 2 ^ 252 * 2 ^ u ≤ 2 ^ 25 * 2 ^ 252 * 2 ^ u :=
            Nat.mul_le_mul_right _ (Nat.mul_le_mul_right _ (Nat.sub_le _ _))
          generalize (2 ^ 25 - 1) * 2 ^ 252 * 2 ^ u = A at *
          generalize 2 ^ 25 * 2 ^ 252 * 2 ^ u = B at *
          omega

/-- A rounded magnitude is at most plus infinity. -/
theorem roundMag_lt (p u : Nat) : (roundMag p u).toNat ≤ 0x7F800000 := by
  unfold roundMag
  split
  · rw [BitVec.toNat_ofNat]; omega
  · decide

/-- A rounding that does not overflow is below plus infinity. -/
theorem roundMag_isFinite (p u : Nat) (h : (dropBits p u - u) * 2 ^ 23 + nearestEven p (dropBits p u) < 0x7F800000) : (roundMag p u).toNat < 0x7F800000 := by
  rw [(roundMag_finite p u h).2]; exact h

/-- Setting the sign bit adds 2^31. -/
theorem withSign_true_toNat (f : F32) (h : f.toNat < 2 ^ 31) : (withSign true f).toNat = 2 ^ 31 + f.toNat := by
  have : withSign true f = f ||| 0x80000000#32 := rfl
  rw [this, BitVec.toNat_or, Nat.or_comm]
  have := Nat.two_pow_add_eq_or_of_lt h 1
  norm_num at *
  exact this.symm

/-- A sign set on a pattern of sign 0 changes nothing but the sign. -/
theorem parts_withSign (neg : Bool) (f : F32) (h : f.toNat < 2 ^ 31) :
    expField (withSign neg f) = expField f ∧ fracField (withSign neg f) = fracField f ∧ signBit (withSign neg f) = neg := by
  cases neg
  · refine ⟨rfl, rfl, ?_⟩
    show f.getLsbD 31 = false
    rw [BitVec.getLsbD, Nat.testBit_lt_two_pow h]
  · have hn := withSign_true_toNat f h
    unfold expField fracField signBit
    rw [hn, BitVec.getLsbD, hn]
    refine ⟨by omega, by omega, ?_⟩
    rw [Nat.testBit_two_pow_add_eq, Nat.testBit_lt_two_pow h]; rfl

/-- The magnitude does not depend on the sign. -/
theorem mag_withSign (neg : Bool) (f : F32) (h : f.toNat < 2 ^ 31) : mag (withSign neg f) = mag f := by
  obtain ⟨h1, h2, _⟩ := parts_withSign neg f h
  unfold mag; rw [h1, h2]

/-- The value of a pattern with a given sign. -/
theorem val_withSign (neg : Bool) (f : F32) (h : f.toNat < 2 ^ 31) : val (withSign neg f) = if neg then -(mag f : Int) else mag f := by
  unfold val; rw [mag_withSign neg f h, (parts_withSign neg f h).2.2]

/-- Patterns below plus infinity are finite. -/
theorem isFinite_of_lt (f : F32) (h : f.toNat < 0x7F800000) : isFinite f = true := by
  simp [isFinite, expField]; omega

/-- So are their negatives. -/
theorem isFinite_withSign (neg : Bool) (f : F32) (h : f.toNat < 0x7F800000) : isFinite (withSign neg f) = true := by
  have := isFinite_of_lt f h
  unfold isFinite at *
  rw [(parts_withSign neg f (by omega)).1]; exact this

end Sys2Proof.Machine
end

