-- ==== Sys2Proof/Laws/Decode.lean ====
section
/-! SUPPORT. What the command word's fields read after packing, and what packing gives back. -/

namespace Sys2Proof

/-- Fields in the ranges of 30_encoding.md R111. -/
abbrev Fields.InRange (f : Fields) : Prop :=
  f.unit < 16 ∧ f.op < 16 ∧ f.inst < 16 ∧ f.idx < 4096 ∧ f.rsv < 256

theorem fieldsOf_inRange (w : Word) : (fieldsOf w).InRange := by
  simp only [fieldsOf, bits, Fields.InRange]
  omega

/-- Fields in range survive packing. -/
theorem fieldsOf_pack (f : Fields) (h : f.InRange) : fieldsOf (pack f) = f := by
  obtain ⟨u, o, k, n, r⟩ := f
  simp only [Fields.InRange] at h
  simp only [fieldsOf, pack, bits, BitVec.toNat_ofNat, Fields.mk.injEq]
  omega

/-- A command word is the packing of its fields. -/
theorem pack_fieldsOf (w : Word) : pack (fieldsOf w) = w := by
  apply BitVec.eq_of_toNat_eq
  have := w.isLt
  simp only [fieldsOf, pack, bits, BitVec.toNat_ofNat]
  omega

theorem fields_rsv (i : Instr) : i.fields.rsv = 0 := by cases i <;> rfl

theorem fields_unit_lt (i : Instr) : i.fields.unit < 11 := by cases i <;> simp [Instr.fields]

theorem fields_op_lt (i : Instr) : i.fields.op < 10 := by cases i <;> simp [Instr.fields]

/-- A well-formed instruction's fields are in range. -/
theorem fields_inRange (i : Instr) (h : i.wf = true) : i.fields.InRange := by
  have hu := fields_unit_lt i
  have ho := fields_op_lt i
  have hr := fields_rsv i
  suffices i.fields.inst < 16 ∧ i.fields.idx < 4096 by simp only [Fields.InRange]; omega
  cases i <;> simp_all [Instr.wf, Instr.fields, instFits, idxFits]

/-- The fields of an encoded well-formed instruction are its own. -/
theorem fieldsOf_encode (i : Instr) (h : i.wf = true) : fieldsOf (encode i).cmd = i.fields :=
  fieldsOf_pack _ (fields_inRange i h)

/-- RSV of an encoded instruction is 0, well-formed or not. -/
theorem rsv_fieldsOf_encode (i : Instr) : (fieldsOf (encode i).cmd).rsv = 0 := by
  have hr := fields_rsv i
  simp only [fieldsOf, encode, pack, bits, BitVec.toNat_ofNat, hr]
  omega

theorem ifZero_ok {b : Bool} {i j : Instr} : ifZero b i = .ok j ↔ b = true ∧ i = j := by
  cases b <;> simp [ifZero]

theorem ifZero_error {b : Bool} {i : Instr} {e : DecodeError} :
    ifZero b i = .error e ↔ b = false ∧ e = .reservedField := by
  cases b <;> simp [ifZero, eq_comm]

end Sys2Proof
end

