-- ==== Sys2Proof/Laws/State.lean ====
section
/-! SUPPORT. One lemma per field of State per update of the shared operations: no later proof unfolds a record
update. -/

namespace Sys2Proof.Machine

section setFir
variable (s : State) (k : Nat) (v : FirInst)
@[simp] theorem State.setFir_cfg : (s.setFir k v).cfg = s.cfg := rfl
@[simp] theorem State.setFir_issue : (s.setFir k v).issue = s.issue := rfl
@[simp] theorem State.setFir_res : (s.setFir k v).res = s.res := rfl
@[simp] theorem State.setFir_status : (s.setFir k v).status = s.status := rfl
@[simp] theorem State.setFir_faultCmd : (s.setFir k v).faultCmd = s.faultCmd := rfl
@[simp] theorem State.setFir_faultArg : (s.setFir k v).faultArg = s.faultArg := rfl
@[simp] theorem State.setFir_fir : (s.setFir k v).fir = s.fir.set k v := rfl
@[simp] theorem State.setFir_iir : (s.setFir k v).iir = s.iir := rfl
@[simp] theorem State.setFir_pwm : (s.setFir k v).pwm = s.pwm := rfl
@[simp] theorem State.setFir_cr : (s.setFir k v).cr = s.cr := rfl
@[simp] theorem State.setFir_prbs : (s.setFir k v).prbs = s.prbs := rfl
@[simp] theorem State.setFir_inbuf : (s.setFir k v).inbuf = s.inbuf := rfl
@[simp] theorem State.setFir_outbuf : (s.setFir k v).outbuf = s.outbuf := rfl
@[simp] theorem State.setFir_pat : (s.setFir k v).pat = s.pat := rfl
@[simp] theorem State.setFir_dcr : (s.setFir k v).dcr = s.dcr := rfl
@[simp] theorem State.setFir_ng : (s.setFir k v).ng = s.ng := rfl
end setFir

section setIir
variable (s : State) (k : Nat) (v : IirInst)
@[simp] theorem State.setIir_cfg : (s.setIir k v).cfg = s.cfg := rfl
@[simp] theorem State.setIir_issue : (s.setIir k v).issue = s.issue := rfl
@[simp] theorem State.setIir_res : (s.setIir k v).res = s.res := rfl
@[simp] theorem State.setIir_status : (s.setIir k v).status = s.status := rfl
@[simp] theorem State.setIir_faultCmd : (s.setIir k v).faultCmd = s.faultCmd := rfl
@[simp] theorem State.setIir_faultArg : (s.setIir k v).faultArg = s.faultArg := rfl
@[simp] theorem State.setIir_fir : (s.setIir k v).fir = s.fir := rfl
@[simp] theorem State.setIir_iir : (s.setIir k v).iir = s.iir.set k v := rfl
@[simp] theorem State.setIir_pwm : (s.setIir k v).pwm = s.pwm := rfl
@[simp] theorem State.setIir_cr : (s.setIir k v).cr = s.cr := rfl
@[simp] theorem State.setIir_prbs : (s.setIir k v).prbs = s.prbs := rfl
@[simp] theorem State.setIir_inbuf : (s.setIir k v).inbuf = s.inbuf := rfl
@[simp] theorem State.setIir_outbuf : (s.setIir k v).outbuf = s.outbuf := rfl
@[simp] theorem State.setIir_pat : (s.setIir k v).pat = s.pat := rfl
@[simp] theorem State.setIir_dcr : (s.setIir k v).dcr = s.dcr := rfl
@[simp] theorem State.setIir_ng : (s.setIir k v).ng = s.ng := rfl
end setIir

section setPwm
variable (s : State) (k : Nat) (v : PwmInst)
@[simp] theorem State.setPwm_cfg : (s.setPwm k v).cfg = s.cfg := rfl
@[simp] theorem State.setPwm_issue : (s.setPwm k v).issue = s.issue := rfl
@[simp] theorem State.setPwm_res : (s.setPwm k v).res = s.res := rfl
@[simp] theorem State.setPwm_status : (s.setPwm k v).status = s.status := rfl
@[simp] theorem State.setPwm_faultCmd : (s.setPwm k v).faultCmd = s.faultCmd := rfl
@[simp] theorem State.setPwm_faultArg : (s.setPwm k v).faultArg = s.faultArg := rfl
@[simp] theorem State.setPwm_fir : (s.setPwm k v).fir = s.fir := rfl
@[simp] theorem State.setPwm_iir : (s.setPwm k v).iir = s.iir := rfl
@[simp] theorem State.setPwm_pwm : (s.setPwm k v).pwm = s.pwm.set k v := rfl
@[simp] theorem State.setPwm_cr : (s.setPwm k v).cr = s.cr := rfl
@[simp] theorem State.setPwm_prbs : (s.setPwm k v).prbs = s.prbs := rfl
@[simp] theorem State.setPwm_inbuf : (s.setPwm k v).inbuf = s.inbuf := rfl
@[simp] theorem State.setPwm_outbuf : (s.setPwm k v).outbuf = s.outbuf := rfl
@[simp] theorem State.setPwm_pat : (s.setPwm k v).pat = s.pat := rfl
@[simp] theorem State.setPwm_dcr : (s.setPwm k v).dcr = s.dcr := rfl
@[simp] theorem State.setPwm_ng : (s.setPwm k v).ng = s.ng := rfl
end setPwm

section setCr
variable (s : State) (k : Nat) (v : CrInst)
@[simp] theorem State.setCr_cfg : (s.setCr k v).cfg = s.cfg := rfl
@[simp] theorem State.setCr_issue : (s.setCr k v).issue = s.issue := rfl
@[simp] theorem State.setCr_res : (s.setCr k v).res = s.res := rfl
@[simp] theorem State.setCr_status : (s.setCr k v).status = s.status := rfl
@[simp] theorem State.setCr_faultCmd : (s.setCr k v).faultCmd = s.faultCmd := rfl
@[simp] theorem State.setCr_faultArg : (s.setCr k v).faultArg = s.faultArg := rfl
@[simp] theorem State.setCr_fir : (s.setCr k v).fir = s.fir := rfl
@[simp] theorem State.setCr_iir : (s.setCr k v).iir = s.iir := rfl
@[simp] theorem State.setCr_pwm : (s.setCr k v).pwm = s.pwm := rfl
@[simp] theorem State.setCr_cr : (s.setCr k v).cr = s.cr.set k v := rfl
@[simp] theorem State.setCr_prbs : (s.setCr k v).prbs = s.prbs := rfl
@[simp] theorem State.setCr_inbuf : (s.setCr k v).inbuf = s.inbuf := rfl
@[simp] theorem State.setCr_outbuf : (s.setCr k v).outbuf = s.outbuf := rfl
@[simp] theorem State.setCr_pat : (s.setCr k v).pat = s.pat := rfl
@[simp] theorem State.setCr_dcr : (s.setCr k v).dcr = s.dcr := rfl
@[simp] theorem State.setCr_ng : (s.setCr k v).ng = s.ng := rfl
end setCr

section setPrbs
variable (s : State) (k : Nat) (v : PrbsInst)
@[simp] theorem State.setPrbs_cfg : (s.setPrbs k v).cfg = s.cfg := rfl
@[simp] theorem State.setPrbs_issue : (s.setPrbs k v).issue = s.issue := rfl
@[simp] theorem State.setPrbs_res : (s.setPrbs k v).res = s.res := rfl
@[simp] theorem State.setPrbs_status : (s.setPrbs k v).status = s.status := rfl
@[simp] theorem State.setPrbs_faultCmd : (s.setPrbs k v).faultCmd = s.faultCmd := rfl
@[simp] theorem State.setPrbs_faultArg : (s.setPrbs k v).faultArg = s.faultArg := rfl
@[simp] theorem State.setPrbs_fir : (s.setPrbs k v).fir = s.fir := rfl
@[simp] theorem State.setPrbs_iir : (s.setPrbs k v).iir = s.iir := rfl
@[simp] theorem State.setPrbs_pwm : (s.setPrbs k v).pwm = s.pwm := rfl
@[simp] theorem State.setPrbs_cr : (s.setPrbs k v).cr = s.cr := rfl
@[simp] theorem State.setPrbs_prbs : (s.setPrbs k v).prbs = s.prbs.set k v := rfl
@[simp] theorem State.setPrbs_inbuf : (s.setPrbs k v).inbuf = s.inbuf := rfl
@[simp] theorem State.setPrbs_outbuf : (s.setPrbs k v).outbuf = s.outbuf := rfl
@[simp] theorem State.setPrbs_pat : (s.setPrbs k v).pat = s.pat := rfl
@[simp] theorem State.setPrbs_dcr : (s.setPrbs k v).dcr = s.dcr := rfl
@[simp] theorem State.setPrbs_ng : (s.setPrbs k v).ng = s.ng := rfl
end setPrbs

section setSlot
variable (s : State) (k : Nat) (v : PatSlot)
@[simp] theorem State.setSlot_cfg : (s.setSlot k v).cfg = s.cfg := rfl
@[simp] theorem State.setSlot_issue : (s.setSlot k v).issue = s.issue := rfl
@[simp] theorem State.setSlot_res : (s.setSlot k v).res = s.res := rfl
@[simp] theorem State.setSlot_status : (s.setSlot k v).status = s.status := rfl
@[simp] theorem State.setSlot_faultCmd : (s.setSlot k v).faultCmd = s.faultCmd := rfl
@[simp] theorem State.setSlot_faultArg : (s.setSlot k v).faultArg = s.faultArg := rfl
@[simp] theorem State.setSlot_fir : (s.setSlot k v).fir = s.fir := rfl
@[simp] theorem State.setSlot_iir : (s.setSlot k v).iir = s.iir := rfl
@[simp] theorem State.setSlot_pwm : (s.setSlot k v).pwm = s.pwm := rfl
@[simp] theorem State.setSlot_cr : (s.setSlot k v).cr = s.cr := rfl
@[simp] theorem State.setSlot_prbs : (s.setSlot k v).prbs = s.prbs := rfl
@[simp] theorem State.setSlot_inbuf : (s.setSlot k v).inbuf = s.inbuf := rfl
@[simp] theorem State.setSlot_outbuf : (s.setSlot k v).outbuf = s.outbuf := rfl
@[simp] theorem State.setSlot_pat : (s.setSlot k v).pat = s.pat.set k v := rfl
@[simp] theorem State.setSlot_dcr : (s.setSlot k v).dcr = s.dcr := rfl
@[simp] theorem State.setSlot_ng : (s.setSlot k v).ng = s.ng := rfl
end setSlot

section setDcr
variable (s : State) (k : Nat) (v : DcrInst)
@[simp] theorem State.setDcr_cfg : (s.setDcr k v).cfg = s.cfg := rfl
@[simp] theorem State.setDcr_issue : (s.setDcr k v).issue = s.issue := rfl
@[simp] theorem State.setDcr_res : (s.setDcr k v).res = s.res := rfl
@[simp] theorem State.setDcr_status : (s.setDcr k v).status = s.status := rfl
@[simp] theorem State.setDcr_faultCmd : (s.setDcr k v).faultCmd = s.faultCmd := rfl
@[simp] theorem State.setDcr_faultArg : (s.setDcr k v).faultArg = s.faultArg := rfl
@[simp] theorem State.setDcr_fir : (s.setDcr k v).fir = s.fir := rfl
@[simp] theorem State.setDcr_iir : (s.setDcr k v).iir = s.iir := rfl
@[simp] theorem State.setDcr_pwm : (s.setDcr k v).pwm = s.pwm := rfl
@[simp] theorem State.setDcr_cr : (s.setDcr k v).cr = s.cr := rfl
@[simp] theorem State.setDcr_prbs : (s.setDcr k v).prbs = s.prbs := rfl
@[simp] theorem State.setDcr_inbuf : (s.setDcr k v).inbuf = s.inbuf := rfl
@[simp] theorem State.setDcr_outbuf : (s.setDcr k v).outbuf = s.outbuf := rfl
@[simp] theorem State.setDcr_pat : (s.setDcr k v).pat = s.pat := rfl
@[simp] theorem State.setDcr_dcr : (s.setDcr k v).dcr = s.dcr.set k v := rfl
@[simp] theorem State.setDcr_ng : (s.setDcr k v).ng = s.ng := rfl
end setDcr

section setNg
variable (s : State) (k : Nat) (v : NgInst)
@[simp] theorem State.setNg_cfg : (s.setNg k v).cfg = s.cfg := rfl
@[simp] theorem State.setNg_issue : (s.setNg k v).issue = s.issue := rfl
@[simp] theorem State.setNg_res : (s.setNg k v).res = s.res := rfl
@[simp] theorem State.setNg_status : (s.setNg k v).status = s.status := rfl
@[simp] theorem State.setNg_faultCmd : (s.setNg k v).faultCmd = s.faultCmd := rfl
@[simp] theorem State.setNg_faultArg : (s.setNg k v).faultArg = s.faultArg := rfl
@[simp] theorem State.setNg_fir : (s.setNg k v).fir = s.fir := rfl
@[simp] theorem State.setNg_iir : (s.setNg k v).iir = s.iir := rfl
@[simp] theorem State.setNg_pwm : (s.setNg k v).pwm = s.pwm := rfl
@[simp] theorem State.setNg_cr : (s.setNg k v).cr = s.cr := rfl
@[simp] theorem State.setNg_prbs : (s.setNg k v).prbs = s.prbs := rfl
@[simp] theorem State.setNg_inbuf : (s.setNg k v).inbuf = s.inbuf := rfl
@[simp] theorem State.setNg_outbuf : (s.setNg k v).outbuf = s.outbuf := rfl
@[simp] theorem State.setNg_pat : (s.setNg k v).pat = s.pat := rfl
@[simp] theorem State.setNg_dcr : (s.setNg k v).dcr = s.dcr := rfl
@[simp] theorem State.setNg_ng : (s.setNg k v).ng = s.ng.set k v := rfl
end setNg

section setInbuf
variable (s : State) (m : Memory)
@[simp] theorem State.setInbuf_cfg : (s.setInbuf m).cfg = s.cfg := rfl
@[simp] theorem State.setInbuf_issue : (s.setInbuf m).issue = s.issue := rfl
@[simp] theorem State.setInbuf_res : (s.setInbuf m).res = s.res := rfl
@[simp] theorem State.setInbuf_status : (s.setInbuf m).status = s.status := rfl
@[simp] theorem State.setInbuf_faultCmd : (s.setInbuf m).faultCmd = s.faultCmd := rfl
@[simp] theorem State.setInbuf_faultArg : (s.setInbuf m).faultArg = s.faultArg := rfl
@[simp] theorem State.setInbuf_fir : (s.setInbuf m).fir = s.fir := rfl
@[simp] theorem State.setInbuf_iir : (s.setInbuf m).iir = s.iir := rfl
@[simp] theorem State.setInbuf_pwm : (s.setInbuf m).pwm = s.pwm := rfl
@[simp] theorem State.setInbuf_cr : (s.setInbuf m).cr = s.cr := rfl
@[simp] theorem State.setInbuf_prbs : (s.setInbuf m).prbs = s.prbs := rfl
@[simp] theorem State.setInbuf_inbuf : (s.setInbuf m).inbuf = m := rfl
@[simp] theorem State.setInbuf_outbuf : (s.setInbuf m).outbuf = s.outbuf := rfl
@[simp] theorem State.setInbuf_pat : (s.setInbuf m).pat = s.pat := rfl
@[simp] theorem State.setInbuf_dcr : (s.setInbuf m).dcr = s.dcr := rfl
@[simp] theorem State.setInbuf_ng : (s.setInbuf m).ng = s.ng := rfl
end setInbuf

section setOutbuf
variable (s : State) (m : Memory)
@[simp] theorem State.setOutbuf_cfg : (s.setOutbuf m).cfg = s.cfg := rfl
@[simp] theorem State.setOutbuf_issue : (s.setOutbuf m).issue = s.issue := rfl
@[simp] theorem State.setOutbuf_res : (s.setOutbuf m).res = s.res := rfl
@[simp] theorem State.setOutbuf_status : (s.setOutbuf m).status = s.status := rfl
@[simp] theorem State.setOutbuf_faultCmd : (s.setOutbuf m).faultCmd = s.faultCmd := rfl
@[simp] theorem State.setOutbuf_faultArg : (s.setOutbuf m).faultArg = s.faultArg := rfl
@[simp] theorem State.setOutbuf_fir : (s.setOutbuf m).fir = s.fir := rfl
@[simp] theorem State.setOutbuf_iir : (s.setOutbuf m).iir = s.iir := rfl
@[simp] theorem State.setOutbuf_pwm : (s.setOutbuf m).pwm = s.pwm := rfl
@[simp] theorem State.setOutbuf_cr : (s.setOutbuf m).cr = s.cr := rfl
@[simp] theorem State.setOutbuf_prbs : (s.setOutbuf m).prbs = s.prbs := rfl
@[simp] theorem State.setOutbuf_inbuf : (s.setOutbuf m).inbuf = s.inbuf := rfl
@[simp] theorem State.setOutbuf_outbuf : (s.setOutbuf m).outbuf = m := rfl
@[simp] theorem State.setOutbuf_pat : (s.setOutbuf m).pat = s.pat := rfl
@[simp] theorem State.setOutbuf_dcr : (s.setOutbuf m).dcr = s.dcr := rfl
@[simp] theorem State.setOutbuf_ng : (s.setOutbuf m).ng = s.ng := rfl
end setOutbuf

section setRes
variable (s : State) (r : Word)
@[simp] theorem State.setRes_cfg : (s.setRes r).cfg = s.cfg := rfl
@[simp] theorem State.setRes_issue : (s.setRes r).issue = s.issue := rfl
@[simp] theorem State.setRes_res : (s.setRes r).res = r := rfl
@[simp] theorem State.setRes_status : (s.setRes r).status = s.status := rfl
@[simp] theorem State.setRes_faultCmd : (s.setRes r).faultCmd = s.faultCmd := rfl
@[simp] theorem State.setRes_faultArg : (s.setRes r).faultArg = s.faultArg := rfl
@[simp] theorem State.setRes_fir : (s.setRes r).fir = s.fir := rfl
@[simp] theorem State.setRes_iir : (s.setRes r).iir = s.iir := rfl
@[simp] theorem State.setRes_pwm : (s.setRes r).pwm = s.pwm := rfl
@[simp] theorem State.setRes_cr : (s.setRes r).cr = s.cr := rfl
@[simp] theorem State.setRes_prbs : (s.setRes r).prbs = s.prbs := rfl
@[simp] theorem State.setRes_inbuf : (s.setRes r).inbuf = s.inbuf := rfl
@[simp] theorem State.setRes_outbuf : (s.setRes r).outbuf = s.outbuf := rfl
@[simp] theorem State.setRes_pat : (s.setRes r).pat = s.pat := rfl
@[simp] theorem State.setRes_dcr : (s.setRes r).dcr = s.dcr := rfl
@[simp] theorem State.setRes_ng : (s.setRes r).ng = s.ng := rfl
end setRes

section clearFault
variable (s : State)
@[simp] theorem State.clearFault_cfg : (s.clearFault).cfg = s.cfg := rfl
@[simp] theorem State.clearFault_issue : (s.clearFault).issue = s.issue := rfl
@[simp] theorem State.clearFault_res : (s.clearFault).res = s.res := rfl
@[simp] theorem State.clearFault_status : (s.clearFault).status = 0#32 := rfl
@[simp] theorem State.clearFault_faultCmd : (s.clearFault).faultCmd = 0#32 := rfl
@[simp] theorem State.clearFault_faultArg : (s.clearFault).faultArg = 0#32 := rfl
@[simp] theorem State.clearFault_fir : (s.clearFault).fir = s.fir := rfl
@[simp] theorem State.clearFault_iir : (s.clearFault).iir = s.iir := rfl
@[simp] theorem State.clearFault_pwm : (s.clearFault).pwm = s.pwm := rfl
@[simp] theorem State.clearFault_cr : (s.clearFault).cr = s.cr := rfl
@[simp] theorem State.clearFault_prbs : (s.clearFault).prbs = s.prbs := rfl
@[simp] theorem State.clearFault_inbuf : (s.clearFault).inbuf = s.inbuf := rfl
@[simp] theorem State.clearFault_outbuf : (s.clearFault).outbuf = s.outbuf := rfl
@[simp] theorem State.clearFault_pat : (s.clearFault).pat = s.pat := rfl
@[simp] theorem State.clearFault_dcr : (s.clearFault).dcr = s.dcr := rfl
@[simp] theorem State.clearFault_ng : (s.clearFault).ng = s.ng := rfl
end clearFault

section takeEvent
variable (s : State)
@[simp] theorem State.takeEvent_cfg : (s.takeEvent).cfg = s.cfg := rfl
@[simp] theorem State.takeEvent_issue : (s.takeEvent).issue = s.issue.tail := rfl
@[simp] theorem State.takeEvent_res : (s.takeEvent).res = s.res := rfl
@[simp] theorem State.takeEvent_status : (s.takeEvent).status = s.status := rfl
@[simp] theorem State.takeEvent_faultCmd : (s.takeEvent).faultCmd = s.faultCmd := rfl
@[simp] theorem State.takeEvent_faultArg : (s.takeEvent).faultArg = s.faultArg := rfl
@[simp] theorem State.takeEvent_fir : (s.takeEvent).fir = s.fir := rfl
@[simp] theorem State.takeEvent_iir : (s.takeEvent).iir = s.iir := rfl
@[simp] theorem State.takeEvent_pwm : (s.takeEvent).pwm = s.pwm := rfl
@[simp] theorem State.takeEvent_cr : (s.takeEvent).cr = s.cr := rfl
@[simp] theorem State.takeEvent_prbs : (s.takeEvent).prbs = s.prbs := rfl
@[simp] theorem State.takeEvent_inbuf : (s.takeEvent).inbuf = s.inbuf := rfl
@[simp] theorem State.takeEvent_outbuf : (s.takeEvent).outbuf = s.outbuf := rfl
@[simp] theorem State.takeEvent_pat : (s.takeEvent).pat = s.pat := rfl
@[simp] theorem State.takeEvent_dcr : (s.takeEvent).dcr = s.dcr := rfl
@[simp] theorem State.takeEvent_ng : (s.takeEvent).ng = s.ng := rfl
end takeEvent

section clearStreams
variable (s : State)
@[simp] theorem State.clearStreams_cfg : (s.clearStreams).cfg = s.cfg := rfl
@[simp] theorem State.clearStreams_issue : (s.clearStreams).issue = s.issue := rfl
@[simp] theorem State.clearStreams_res : (s.clearStreams).res = s.res := rfl
@[simp] theorem State.clearStreams_status : (s.clearStreams).status = s.status := rfl
@[simp] theorem State.clearStreams_faultCmd : (s.clearStreams).faultCmd = s.faultCmd := rfl
@[simp] theorem State.clearStreams_faultArg : (s.clearStreams).faultArg = s.faultArg := rfl
@[simp] theorem State.clearStreams_fir : (s.clearStreams).fir = s.fir.map FirInst.clear := rfl
@[simp] theorem State.clearStreams_iir : (s.clearStreams).iir = s.iir.map IirInst.clear := rfl
@[simp] theorem State.clearStreams_pwm : (s.clearStreams).pwm = s.pwm.map PwmInst.clear := rfl
@[simp] theorem State.clearStreams_cr : (s.clearStreams).cr = s.cr.map CrInst.clear := rfl
@[simp] theorem State.clearStreams_prbs : (s.clearStreams).prbs = s.prbs.map PrbsInst.clear := rfl
@[simp] theorem State.clearStreams_inbuf : (s.clearStreams).inbuf = s.inbuf := rfl
@[simp] theorem State.clearStreams_outbuf : (s.clearStreams).outbuf = s.outbuf := rfl
@[simp] theorem State.clearStreams_pat : (s.clearStreams).pat = s.pat := rfl
@[simp] theorem State.clearStreams_dcr : (s.clearStreams).dcr = s.dcr.map DcrInst.clear := rfl
@[simp] theorem State.clearStreams_ng : (s.clearStreams).ng = s.ng.map NgInst.clear := rfl
end clearStreams

section powerOnReset
variable (s : State)
@[simp] theorem State.powerOnReset_cfg : (s.powerOnReset).cfg = s.cfg := rfl
@[simp] theorem State.powerOnReset_issue : (s.powerOnReset).issue = s.issue := rfl
@[simp] theorem State.powerOnReset_res : (s.powerOnReset).res = (State.powerOn s.cfg).res := rfl
@[simp] theorem State.powerOnReset_status : (s.powerOnReset).status = (State.powerOn s.cfg).status := rfl
@[simp] theorem State.powerOnReset_faultCmd : (s.powerOnReset).faultCmd = (State.powerOn s.cfg).faultCmd := rfl
@[simp] theorem State.powerOnReset_faultArg : (s.powerOnReset).faultArg = (State.powerOn s.cfg).faultArg := rfl
@[simp] theorem State.powerOnReset_fir : (s.powerOnReset).fir = (State.powerOn s.cfg).fir := rfl
@[simp] theorem State.powerOnReset_iir : (s.powerOnReset).iir = (State.powerOn s.cfg).iir := rfl
@[simp] theorem State.powerOnReset_pwm : (s.powerOnReset).pwm = (State.powerOn s.cfg).pwm := rfl
@[simp] theorem State.powerOnReset_cr : (s.powerOnReset).cr = (State.powerOn s.cfg).cr := rfl
@[simp] theorem State.powerOnReset_prbs : (s.powerOnReset).prbs = (State.powerOn s.cfg).prbs := rfl
@[simp] theorem State.powerOnReset_inbuf : (s.powerOnReset).inbuf = (State.powerOn s.cfg).inbuf := rfl
@[simp] theorem State.powerOnReset_outbuf : (s.powerOnReset).outbuf = (State.powerOn s.cfg).outbuf := rfl
@[simp] theorem State.powerOnReset_pat : (s.powerOnReset).pat = (State.powerOn s.cfg).pat := rfl
@[simp] theorem State.powerOnReset_dcr : (s.powerOnReset).dcr = (State.powerOn s.cfg).dcr := rfl
@[simp] theorem State.powerOnReset_ng : (s.powerOnReset).ng = (State.powerOn s.cfg).ng := rfl
end powerOnReset

section withFetchWord
variable (s : State) (nbits w : Nat)
@[simp] theorem State.withFetchWord_cfg : (s.withFetchWord nbits w).cfg = s.cfg := rfl
@[simp] theorem State.withFetchWord_issue : (s.withFetchWord nbits w).issue = .command (commandOfBits nbits w) :: s.issue := rfl
@[simp] theorem State.withFetchWord_res : (s.withFetchWord nbits w).res = s.res := rfl
@[simp] theorem State.withFetchWord_status : (s.withFetchWord nbits w).status = s.status := rfl
@[simp] theorem State.withFetchWord_faultCmd : (s.withFetchWord nbits w).faultCmd = s.faultCmd := rfl
@[simp] theorem State.withFetchWord_faultArg : (s.withFetchWord nbits w).faultArg = s.faultArg := rfl
@[simp] theorem State.withFetchWord_fir : (s.withFetchWord nbits w).fir = s.fir := rfl
@[simp] theorem State.withFetchWord_iir : (s.withFetchWord nbits w).iir = s.iir := rfl
@[simp] theorem State.withFetchWord_pwm : (s.withFetchWord nbits w).pwm = s.pwm := rfl
@[simp] theorem State.withFetchWord_cr : (s.withFetchWord nbits w).cr = s.cr := rfl
@[simp] theorem State.withFetchWord_prbs : (s.withFetchWord nbits w).prbs = s.prbs := rfl
@[simp] theorem State.withFetchWord_inbuf : (s.withFetchWord nbits w).inbuf = s.inbuf := rfl
@[simp] theorem State.withFetchWord_outbuf : (s.withFetchWord nbits w).outbuf = s.outbuf := rfl
@[simp] theorem State.withFetchWord_pat : (s.withFetchWord nbits w).pat = s.pat := rfl
@[simp] theorem State.withFetchWord_dcr : (s.withFetchWord nbits w).dcr = s.dcr := rfl
@[simp] theorem State.withFetchWord_ng : (s.withFetchWord nbits w).ng = s.ng := rfl
end withFetchWord

section recordFault
variable (s : State) (c : Cause) (w : Command)
@[simp] theorem State.recordFault_cfg : (s.recordFault c w).cfg = s.cfg := by
  unfold State.recordFault; split <;> rfl
@[simp] theorem State.recordFault_issue : (s.recordFault c w).issue = s.issue := by
  unfold State.recordFault; split <;> rfl
@[simp] theorem State.recordFault_res : (s.recordFault c w).res = s.res := by
  unfold State.recordFault; split <;> rfl
@[simp] theorem State.recordFault_status :
    (s.recordFault c w).status = if errFlag s.status then s.status else faultStatus c := by
  unfold State.recordFault; split <;> rfl
@[simp] theorem State.recordFault_faultCmd :
    (s.recordFault c w).faultCmd = if errFlag s.status then s.faultCmd else w.cmd := by
  unfold State.recordFault; split <;> rfl
@[simp] theorem State.recordFault_faultArg :
    (s.recordFault c w).faultArg = if errFlag s.status then s.faultArg else w.arg := by
  unfold State.recordFault; split <;> rfl
@[simp] theorem State.recordFault_fir : (s.recordFault c w).fir = s.fir := by
  unfold State.recordFault; split <;> rfl
@[simp] theorem State.recordFault_iir : (s.recordFault c w).iir = s.iir := by
  unfold State.recordFault; split <;> rfl
@[simp] theorem State.recordFault_pwm : (s.recordFault c w).pwm = s.pwm := by
  unfold State.recordFault; split <;> rfl
@[simp] theorem State.recordFault_cr : (s.recordFault c w).cr = s.cr := by
  unfold State.recordFault; split <;> rfl
@[simp] theorem State.recordFault_prbs : (s.recordFault c w).prbs = s.prbs := by
  unfold State.recordFault; split <;> rfl
@[simp] theorem State.recordFault_inbuf : (s.recordFault c w).inbuf = s.inbuf := by
  unfold State.recordFault; split <;> rfl
@[simp] theorem State.recordFault_outbuf : (s.recordFault c w).outbuf = s.outbuf := by
  unfold State.recordFault; split <;> rfl
@[simp] theorem State.recordFault_pat : (s.recordFault c w).pat = s.pat := by
  unfold State.recordFault; split <;> rfl
@[simp] theorem State.recordFault_dcr : (s.recordFault c w).dcr = s.dcr := by
  unfold State.recordFault; split <;> rfl
@[simp] theorem State.recordFault_ng : (s.recordFault c w).ng = s.ng := by
  unfold State.recordFault; split <;> rfl
end recordFault

section takeFault
variable (s : State) (c : Cause) (w : Command)
@[simp] theorem State.takeFault_cfg : (s.takeFault c w).cfg = s.cfg := s.recordFault_cfg c w
@[simp] theorem State.takeFault_issue : (s.takeFault c w).issue = s.issue := s.recordFault_issue c w
@[simp] theorem State.takeFault_res : (s.takeFault c w).res = 0#32 := rfl
@[simp] theorem State.takeFault_status :
    (s.takeFault c w).status = if errFlag s.status then s.status else faultStatus c := s.recordFault_status c w
@[simp] theorem State.takeFault_faultCmd :
    (s.takeFault c w).faultCmd = if errFlag s.status then s.faultCmd else w.cmd := s.recordFault_faultCmd c w
@[simp] theorem State.takeFault_faultArg :
    (s.takeFault c w).faultArg = if errFlag s.status then s.faultArg else w.arg := s.recordFault_faultArg c w
@[simp] theorem State.takeFault_fir : (s.takeFault c w).fir = s.fir := s.recordFault_fir c w
@[simp] theorem State.takeFault_iir : (s.takeFault c w).iir = s.iir := s.recordFault_iir c w
@[simp] theorem State.takeFault_pwm : (s.takeFault c w).pwm = s.pwm := s.recordFault_pwm c w
@[simp] theorem State.takeFault_cr : (s.takeFault c w).cr = s.cr := s.recordFault_cr c w
@[simp] theorem State.takeFault_prbs : (s.takeFault c w).prbs = s.prbs := s.recordFault_prbs c w
@[simp] theorem State.takeFault_inbuf : (s.takeFault c w).inbuf = s.inbuf := s.recordFault_inbuf c w
@[simp] theorem State.takeFault_outbuf : (s.takeFault c w).outbuf = s.outbuf := s.recordFault_outbuf c w
@[simp] theorem State.takeFault_pat : (s.takeFault c w).pat = s.pat := s.recordFault_pat c w
@[simp] theorem State.takeFault_dcr : (s.takeFault c w).dcr = s.dcr := s.recordFault_dcr c w
@[simp] theorem State.takeFault_ng : (s.takeFault c w).ng = s.ng := s.recordFault_ng c w
end takeFault

end Sys2Proof.Machine
end

