-- ==== Sys2Proof/Laws/Ops.lean ====
section
/-! SUPPORT. One lemma per shared operation that says once what it can do: the checks, one command, a fault, and one
event at the port. -/

namespace Sys2Proof.Machine

@[simp] theorem firstFailing_nil : firstFailing [] = none := rfl

@[simp] theorem firstFailing_cons (b : Bool) (c : Cause) (cs : List (Bool × Cause)) :
    firstFailing ((b, c) :: cs) = if b then firstFailing cs else some c := rfl

/-- No check fails exactly when every check passes. -/
theorem firstFailing_eq_none : ∀ cs : List (Bool × Cause), firstFailing cs = none ↔ ∀ c ∈ cs, c.1 = true
  | [] => by simp
  | (b, c) :: cs => by cases b <;> simp [firstFailing_eq_none cs]

@[simp] theorem instCheck_fst (k n : Nat) : (instCheck k n).1 = decide (k < n) := rfl
@[simp] theorem instCheck_snd (k n : Nat) : (instCheck k n).2 = .badInstance := rfl
@[simp] theorem idxCheck_fst (k n : Nat) : (idxCheck k n).1 = decide (k < n) := rfl
@[simp] theorem idxCheck_snd (k n : Nat) : (idxCheck k n).2 = .badIndex := rfl

/-- A command whose checks pass has its effect. -/
theorem guarded_of_pass {i : Instr} {cs : List (Bool × Cause)} {s e : State} (h : ∀ c ∈ cs, c.1 = true) :
    guarded i cs s e = .next e := by
  rw [guarded, (firstFailing_eq_none cs).mpr h]

/-- A command whose checks fail takes the fault of the first that fails. -/
theorem guarded_of_fail {i : Instr} {cs : List (Bool × Cause)} {s e : State} {c : Cause}
    (h : firstFailing cs = some c) : guarded i cs s e = .next (s.takeFault c (encode i)) := by
  rw [guarded, h]

/-- All that one command can do: its effect, or the fault of its first failing check. -/
theorem guarded_cases {i : Instr} {cs : List (Bool × Cause)} {s e t : State} (h : guarded i cs s e = .next t) :
    (firstFailing cs = none ∧ t = e) ∨ (∃ c, firstFailing cs = some c ∧ t = s.takeFault c (encode i)) := by
  unfold guarded at h
  split at h
  · rename_i c hc
    exact .inr ⟨c, hc, by cases h; rfl⟩
  · rename_i hc
    exact .inl ⟨hc, by cases h; rfl⟩

/-- One command always answers a next state. -/
theorem guarded_answers (i : Instr) (cs : List (Bool × Cause)) (s e : State) : ∃ t, guarded i cs s e = .next t := by
  unfold guarded
  split <;> exact ⟨_, rfl⟩

/-- A fault while ERR is set changes RES alone (60_exceptions.md R333). -/
theorem takeFault_of_err {s : State} (h : errFlag s.status = true) (c : Cause) (w : Command) :
    s.takeFault c w = s.setRes 0#32 := by
  rw [State.takeFault, State.recordFault, if_pos h]

/-- A fault while ERR is clear writes the record (60_exceptions.md R333). -/
theorem takeFault_of_clear {s : State} (h : errFlag s.status = false) (c : Cause) (w : Command) :
    s.takeFault c w =
      { s with res := 0#32, status := faultStatus c, faultCmd := w.cmd, faultArg := w.arg } := by
  rw [State.takeFault, State.recordFault, if_neg (by simp [h])]
  rfl

/-- ERR is set in every word a fault leaves in STATUS. -/
@[simp] theorem errFlag_faultStatus (c : Cause) : errFlag (faultStatus c) = true := by cases c <;> rfl

/-- CAUSE holds the code of the cause (60_exceptions.md R333). -/
@[simp] theorem causeField_faultStatus (c : Cause) : causeField (faultStatus c) = causeCode c := by cases c <;> rfl

section banks
variable {s : State} {k : Nat}

theorem firAt_of_some {f : FirInst} (h : s.fir[k]? = some f) : s.firAt k = f := by simp [State.firAt, List.getD, h]
theorem iirAt_of_some {f : IirInst} (h : s.iir[k]? = some f) : s.iirAt k = f := by simp [State.iirAt, List.getD, h]
theorem pwmAt_of_some {f : PwmInst} (h : s.pwm[k]? = some f) : s.pwmAt k = f := by simp [State.pwmAt, List.getD, h]
theorem crAt_of_some {f : CrInst} (h : s.cr[k]? = some f) : s.crAt k = f := by simp [State.crAt, List.getD, h]
theorem prbsAt_of_some {f : PrbsInst} (h : s.prbs[k]? = some f) : s.prbsAt k = f := by
  simp [State.prbsAt, List.getD, h]
theorem slotAt_of_some {f : PatSlot} (h : s.pat[k]? = some f) : s.slotAt k = f := by simp [State.slotAt, List.getD, h]
theorem dcrAt_of_some {f : DcrInst} (h : s.dcr[k]? = some f) : s.dcrAt k = f := by simp [State.dcrAt, List.getD, h]
theorem ngAt_of_some {f : NgInst} (h : s.ng[k]? = some f) : s.ngAt k = f := by simp [State.ngAt, List.getD, h]

end banks

/-- All that one event at the port can do. -/
theorem portStep_cases (s : State) :
    (s.issue = [] ∧ portStep s = .next s) ∨
    (∃ rest, s.issue = .resetInput :: rest ∧ portStep s = .next s.takeEvent.powerOnReset) ∨
    (∃ c rest i, s.issue = .command c :: rest ∧ decode c = .ok i ∧ portStep s = exec i s.takeEvent) ∨
    (∃ c rest e, s.issue = .command c :: rest ∧ decode c = .error e ∧
      portStep s = .next (s.takeEvent.takeFault (decodeCause e) c)) := by
  unfold portStep
  split
  · exact .inl ⟨‹_›, rfl⟩
  · rename_i ev rest h
    cases ev with
    | resetInput => exact .inr (.inl ⟨rest, h, rfl⟩)
    | command c =>
      simp only [runEvent, runCommand]
      cases hd : decode c with
      | ok i => exact .inr (.inr (.inl ⟨c, rest, i, h, hd, by simp only⟩))
      | error e => exact .inr (.inr (.inr ⟨c, rest, e, h, hd, by simp only [rejectCommand]⟩))

end Sys2Proof.Machine
end

