-- ==== Sys2Proof/Laws/Exec.lean ====
section
/-! SUPPORT. Every meaning is one guarded command that keeps the parameters and the host's events. -/

namespace Sys2Proof.Machine

/-- All that a meaning can be: some checks and an effect that keeps the parameters and the host's events. -/
theorem exec_guarded (i : Instr) (s : State) :
    ∃ cs e, exec i s = guarded i cs s e ∧ e.cfg = s.cfg ∧ e.issue = s.issue := by
  cases i <;> simp only [exec, execConvNeg, execConvS16tou12, execConvS16tou8, execConvU12tos16, execConvU8tos16, execCrGetsp, execCrRdcount,
    execCrRdcursor, execCrRdenergy, execCrRdprev, execCrReset, execCrSample, execCrUpdate, execCtrlClrerr,
    execCtrlNop, execCtrlRdfarg, execCtrlRdfcmd, execCtrlRdid, execCtrlRdparam, execCtrlRdstatus, execCtrlRstall,
    execDcrRdalpha, execDcrRdstate, execDcrReset, execDcrSetalpha, execDcrStep, execFirRdhist, execFirRdn,
    execFirRdtap, execFirReset, execFirSettap, execFirStep, execFirStepf, execGolayCsum, execGolayDecode,
    execGolayDetect, execGolayEnc, execIirRdden, execIirRdhist, execIirRdn, execIirRdnum, execIirReset,
    execIirSetden, execIirSetnum, execIirStep, execIirStepf, execNgRdcfg, execNgRdstate, execNgReset, execNgSetcfg,
    execNgStep, execPrbsGen, execPrbsRdstate, execPrbsReset, execPrbsSync, execPrbsValidate, execPuncDepunct,
    execPuncPunct, execPuncRdin, execPuncRdout, execPuncRdpat, execPuncRdplen, execPuncSetpat, execPuncSetplen,
    execPuncWrin, execPuncWrout, execPwmRdcoef, execPwmRdstate, execPwmReset, execPwmStep] <;>
    exact ⟨_, _, rfl, rfl, rfl⟩

end Sys2Proof.Machine
end

