-- ==== Sys2Proof/Laws/Memory.lean ====
section
/-! SUPPORT. The buffers: read after write, every other byte and bit unchanged, the canonical form kept. -/

namespace Sys2Proof.Machine

theorem readByte_listByte (a b : Nat) (v : Byte) (m : Memory) (h : a = b → readByte m b = unlistedByte) :
    readByte (listByte a v m) b = if b = a then v else readByte m b := by
  unfold listByte
  by_cases hv : v = unlistedByte
  · by_cases hb : b = a
    · subst hb; simp [hv, h rfl]
    · simp [hv, hb]
  · simp only [hv, if_false, readByte]

/-- Below the first listed address nothing is listed. -/
theorem readByte_of_lt : ∀ (m : Memory) (a : Nat), (∀ c ∈ m, a < c.1) → readByte m a = unlistedByte
  | [], _, _ => rfl
  | c :: m, a, h => by
    have hc := h c (by simp)
    rw [readByte, if_neg (by omega)]
    exact readByte_of_lt m a fun d hd => h d (by simp [hd])

/-- A byte written reads back, and every other byte reads as before (20_memory.md R92). -/
theorem readByte_writeByte : ∀ (m : Memory) (a b : Nat) (v : Byte), m.wf →
    readByte (writeByte m a v) b = if b = a then v else readByte m b
  | [], a, b, v, _ => by
    rw [writeByte, readByte_listByte a b v [] fun _ => rfl]
  | c :: m, a, b, v, hw => by
    have hlt : ∀ d ∈ m, c.1 < d.1 := (List.pairwise_cons.mp hw.1).1
    have hm : Memory.wf m := ⟨(List.pairwise_cons.mp hw.1).2, fun d hd => hw.2 d (by simp [hd])⟩
    rw [writeByte]
    split
    · rename_i h1
      rw [readByte_listByte a b v (c :: m)]
      rintro rfl
      exact readByte_of_lt _ _ fun d hd => by
        rcases List.mem_cons.mp hd with rfl | hd
        · exact h1
        · have := hlt d hd; omega
    · split
      · rename_i _ h2
        rw [readByte_listByte a b v m]
        · simp only [readByte, h2]; split <;> simp_all
        · rintro rfl
          exact readByte_of_lt _ _ fun d hd => by have := hlt d hd; omega
      · rename_i h1 h2
        rw [readByte, readByte_writeByte m a b v hm, readByte]
        split
        · rename_i h3; rw [if_neg (by omega)]
        · rfl

theorem mem_writeByte : ∀ (m : Memory) (a : Nat) (v : Byte) (c : Host.Cell),
    c ∈ writeByte m a v → c = (a, v) ∧ v ≠ unlistedByte ∨ c ∈ m
  | [], a, v, c, h => by
    simp only [writeByte, listByte] at h; split at h <;> simp_all
  | d :: m, a, v, c, h => by
    rw [writeByte] at h
    split at h
    · simp only [listByte] at h; split at h
      · exact .inr h
      · rcases List.mem_cons.mp h with rfl | h
        · exact .inl ⟨rfl, by assumption⟩
        · exact .inr h
    · split at h
      · simp only [listByte] at h; split at h
        · exact .inr (by simp [h])
        · rcases List.mem_cons.mp h with rfl | h
          · exact .inl ⟨rfl, by assumption⟩
          · exact .inr (by simp [h])
      · rcases List.mem_cons.mp h with rfl | h
        · exact .inr (by simp)
        · rcases mem_writeByte m a v c h with h | h
          · exact .inl h
          · exact .inr (by simp [h])

/-- A write keeps the canonical form (log 8). -/
theorem writeByte_wf : ∀ (m : Memory) (a : Nat) (v : Byte), m.wf → Memory.wf (writeByte m a v)
  | [], a, v, _ => by
    simp only [writeByte, listByte]; split <;> simp_all [Memory.wf]
  | c :: m, a, v, hw => by
    have hlt : ∀ d ∈ m, c.1 < d.1 := (List.pairwise_cons.mp hw.1).1
    have hm : Memory.wf m := ⟨(List.pairwise_cons.mp hw.1).2, fun d hd => hw.2 d (by simp [hd])⟩
    have hc : c.2 ≠ unlistedByte := hw.2 c (by simp)
    rw [writeByte]
    split
    · rename_i h1
      simp only [listByte]; split
      · exact hw
      · refine ⟨List.pairwise_cons.mpr ⟨?_, hw.1⟩, ?_⟩
        · intro d hd
          rcases List.mem_cons.mp hd with rfl | hd
          · exact h1
          · have := hlt d hd; simp only; omega
        · intro d hd
          rcases List.mem_cons.mp hd with rfl | hd
          · assumption
          · exact hw.2 d hd
    · split
      · rename_i _ h2
        simp only [listByte]; split
        · exact hm
        · refine ⟨List.pairwise_cons.mpr ⟨?_, hm.1⟩, ?_⟩
          · intro d hd; have := hlt d hd; simp only; omega
          · intro d hd
            rcases List.mem_cons.mp hd with rfl | hd
            · assumption
            · exact hm.2 d hd
      · rename_i h1 h2
        have ih := writeByte_wf m a v hm
        refine ⟨List.pairwise_cons.mpr ⟨?_, ih.1⟩, ?_⟩
        · intro d hd
          rcases mem_writeByte m a v d hd with ⟨rfl, _⟩ | hd
          · simp only; omega
          · exact hlt d hd
        · intro d hd
          rcases List.mem_cons.mp hd with rfl | hd
          · exact hc
          · exact ih.2 d hd

/-- A write inside the buffer lists no byte outside it. -/
theorem writeByte_bound (m : Memory) (a size : Nat) (v : Byte) (ha : a < size) (h : ∀ c ∈ m, c.1 < size) :
    ∀ c ∈ writeByte m a v, c.1 < size := by
  intro c hc
  rcases mem_writeByte m a v c hc with ⟨rfl, _⟩ | hc
  · exact ha
  · exact h c hc

/-- Masking one bit tests it, as a check of every byte. -/
theorem and_mask_ne_zero (v : Byte) (n : Fin 8) : (v &&& (1#8 <<< n.val) != 0#8) = v.getLsbD n := by
  revert v n
  decide +kernel

/-- Bit n of a one-bit mask. -/
theorem mask_getLsbD : ∀ j n : Fin 8, (1#8 <<< j.val).getLsbD n = decide (n = j) := by decide +kernel

/-- A byte with one bit replaced. -/
theorem byte_bit_set (v : Byte) (j k : Fin 8) (b : Bool) :
    ((v &&& ~~~ (1#8 <<< j.val)) ||| (if b then 1#8 <<< j.val else 0#8)).getLsbD k
      = if k = j then b else v.getLsbD k := by
  have hk := k.isLt
  have hm := mask_getLsbD j k
  generalize 1#8 <<< j.val = mask at hm
  rw [BitVec.getLsbD_or, BitVec.getLsbD_and, BitVec.getLsbD_not, hm]
  have hz : (0#8).getLsbD k = false := by simp
  by_cases h : k = j
  · cases b
    · rw [if_neg (by decide), hz]; simp [h]
    · rw [if_pos rfl, hm]; simp [h]
  · cases b
    · rw [if_neg (by decide), hz]; simp [h]
    · rw [if_pos rfl, hm]; simp [h]

/-- Stream bit i is bit 7 - (i mod 8) of byte i / 8, the first stream bit highest (20_memory.md R93). -/
theorem getBit_eq_getLsbD (m : Memory) (i : Nat) : getBit m i = (readByte m (i / 8)).getLsbD (7 - i % 8) :=
  and_mask_ne_zero _ ⟨7 - i % 8, by omega⟩

/-- A bit set reads back, and every other bit of the stream reads as before (20_memory.md R93). -/
theorem getBit_setBit (m : Memory) (i j : Nat) (b : Bool) (h : m.wf) :
    getBit (setBit m i b) j = if j = i then b else getBit m j := by
  unfold getBit setBit
  rw [readByte_writeByte _ _ _ _ h]
  by_cases hd : j / 8 = i / 8
  · have key := byte_bit_set (readByte m (i / 8)) ⟨7 - i % 8, by omega⟩ ⟨7 - j % 8, by omega⟩ b
    have rd := fun v : Byte => and_mask_ne_zero v ⟨7 - j % 8, by omega⟩
    simp only [Fin.mk.injEq] at key rd
    simp only [hd, if_true, streamMask, rd]
    rw [key]
    by_cases hj : j = i
    · simp [hj]
    · rw [if_neg (by omega), if_neg hj]
  · rw [if_neg hd, if_neg (by rintro rfl; exact hd rfl)]

/-- Setting a bit keeps the canonical form. -/
theorem setBit_wf (m : Memory) (i : Nat) (b : Bool) (h : m.wf) : Memory.wf (setBit m i b) := writeByte_wf _ _ _ h

/-- Setting a bit inside the buffer lists no byte outside it. -/
theorem setBit_bound (m : Memory) (i size : Nat) (b : Bool) (hi : i / 8 < size) (h : ∀ c ∈ m, c.1 < size) :
    ∀ c ∈ setBit m i b, c.1 < size := writeByte_bound _ _ _ _ hi h

end Sys2Proof.Machine
end

