-- ==== Sys2Proof/Laws/Units.lean ====
section
/-! SUPPORT. What the units' own operations do: histories, accumulators, the crossing scan, the Golay sums, the
puncture runs and the sample conversions. -/

namespace Sys2Proof.Machine

/-! ### Lists -/

theorem getD_of_getElem? {α : Type} {l : List α} {n : Nat} {v d : α} (h : l[n]? = some v) : l.getD n d = v := by
  simp [List.getD, h]

theorem lt_of_getElem? {α : Type} {l : List α} {n : Nat} {v : α} (h : l[n]? = some v) : n < l.length :=
  (List.getElem?_eq_some_iff.mp h).1

theorem getD_mem {α : Type} {l : List α} {k : Nat} (d : α) (h : k < l.length) : l.getD k d ∈ l := by
  simp [List.getD, List.getElem?_eq_getElem h]

/-- Writing back what an entry holds changes nothing. -/
theorem set_same {α : Type} {l : List α} {k : Nat} {v : α} (h : l[k]? = some v) : l.set k v = l := by
  obtain ⟨_, rfl⟩ := List.getElem?_eq_some_iff.mp h
  simp

/-! ### Histories and accumulators (41_fir_iir.md R163, R170) -/

@[simp] theorem pushHist_length (x : F32) (l : List F32) : (pushHist x l).length = l.length := by simp [pushHist]

theorem pushHist_zero (x : F32) (l : List F32) (h : 0 < l.length) : (pushHist x l)[0]? = some x := by
  simp [pushHist, h]

theorem pushHist_succ (x : F32) (l : List F32) (i : Nat) (h : i + 1 < l.length) : (pushHist x l)[i + 1]? = l[i]? := by
  simp [pushHist, h]

/-- The last pair of an accumulation is added last. -/
theorem macFrom_append (acc : F32) (c h : List F32) (a b : F32) (hl : c.length = h.length) :
    macFrom acc (c ++ [a]) (h ++ [b]) = fadd (macFrom acc c h) (fmul a b) := by
  induction c generalizing acc h with
  | nil => cases h <;> simp_all [macFrom]
  | cons x xs ih =>
    cases h with
    | nil => simp at hl
    | cons y ys => simp only [List.cons_append, macFrom]; exact ih _ _ (by simpa using hl)

/-! ### The crossing scan (43_clock_recovery.md R202) -/

/-- The scan answers 0 or an index of the list. -/
theorem crossing_lt (es : List (BitVec 32)) : ∀ (b : Bool) (i : Nat), crossing b i es = 0 ∨ crossing b i es < i + es.length := by
  induction es with
  | nil => intro b i; left; rfl
  | cons e es ih =>
    intro b i
    rw [crossing, List.length_cons]
    split
    · have := ih true (i + 1); omega
    · split
      · omega
      · have := ih b (i + 1); omega

/-- After a positive energy, the scan answers the first negative index, or 0. -/
theorem crossing_after_positive (es : List (BitVec 32)) : ∀ i : Nat,
    (∃ (j : Nat) (v : BitVec 32), es[j]? = some v ∧ v.toInt < 0 ∧
      (∀ (j' : Nat) (v' : BitVec 32), j' < j → es[j']? = some v' → ¬ v'.toInt < 0) ∧ crossing true i es = i + j) ∨
    ((∀ (j : Nat) (v : BitVec 32), es[j]? = some v → ¬ v.toInt < 0) ∧ crossing true i es = 0) := by
  induction es with
  | nil => intro i; right; simp [crossing]
  | cons e es ih =>
    intro i
    by_cases he : e.toInt < 0
    · exact .inl ⟨0, e, rfl, he, by simp, by simp [crossing, he]⟩
    · rcases ih (i + 1) with ⟨j, v, h1, h2, h3, h4⟩ | ⟨h1, h2⟩
      · left
        refine ⟨j + 1, v, by simpa using h1, h2, ?_, by simp [crossing, he, h4]; omega⟩
        intro j' v' hj hv
        cases j' with
        | zero => simp at hv; subst hv; exact he
        | succ j' => exact h3 j' v' (by omega) (by simpa using hv)
      · right
        refine ⟨?_, by simp [crossing, he, h2]⟩
        intro j v hv
        cases j with
        | zero => simp at hv; subst hv; exact he
        | succ j => exact h1 j v (by simpa using hv)

/-! ### Golay sums (45_golay.md R241, R242, R244) -/

/-- The row sum is linear in the selecting word. -/
theorem xorRows_xor (a b : BitVec 12) : ∀ (t : List (BitVec 12)) (j : Nat),
    xorRows (a ^^^ b) j t = xorRows a j t ^^^ xorRows b j t
  | [], j => by simp [xorRows]
  | r :: t, j => by
    rw [xorRows, xorRows, xorRows, xorRows_xor a b t (j + 1), BitVec.getLsbD_xor]
    ext i hi
    simp only [BitVec.getElem_xor]
    cases a.getLsbD j <;> cases b.getLsbD j <;> simp <;> cases r[i] <;> simp

/-- The checksum is linear (45_golay.md R242, corner cases). -/
theorem csum_xor (ge : List (BitVec 12)) (a b : BitVec 12) : csum ge (a ^^^ b) = csum ge a ^^^ csum ge b :=
  xorRows_xor a b ge 0

/-- So is the inverse syndrome. -/
theorem mulD_xor (ge : List (BitVec 12)) (a b : BitVec 12) : mulD ge (a ^^^ b) = mulD ge a ^^^ mulD ge b :=
  xorRows_xor a b _ 0

/-- Bit m of column i is bit i of entry m (45_golay.md R241). -/
theorem column_getLsbD (i : Nat) : ∀ (t : List (BitVec 12)) (j m : Nat), m < 12 →
    (column i j t).getLsbD m = (decide (j ≤ m) && (t.getD (m - j) 0#12).getLsbD i)
  | [], j, m, _ => by simp [column]
  | r :: t, j, m, hm => by
    rw [column, BitVec.getLsbD_or, column_getLsbD i t (j + 1) m hm]
    rcases Nat.lt_trichotomy m j with h | h | h
    · rw [show decide (j ≤ m) = false by simp; omega, show decide (j + 1 ≤ m) = false by simp; omega]
      cases r.getLsbD i <;> simp; omega
    · subst h
      cases hr : r.getLsbD i <;> simp [hm, hr]
    · rw [show decide (j ≤ m) = true by simp; omega, show decide (j + 1 ≤ m) = true by simp; omega]
      obtain ⟨d, rfl⟩ : ∃ d, m = j + 1 + d := ⟨m - (j + 1), by omega⟩
      rw [show j + 1 + d - j = d + 1 by omega, show j + 1 + d - (j + 1) = d by omega]
      cases r.getLsbD i <;> simp
      intro h; omega

@[simp] theorem decodeTable_length (ge : List (BitVec 12)) : (decodeTable ge).length = 12 := by simp [decodeTable]

/-- `findRow` answers the first index that passes its test. -/
theorem findRow_eq (s : BitVec 12) : ∀ (t : List (BitVec 12)) (j : Nat),
    findRow s j t = ((List.range t.length).find? fun m => decide (weight (s ^^^ t.getD m 0#12) ≤ 2)).map
      fun m => (j + m, s ^^^ t.getD m 0#12)
  | [], j => by simp [findRow]
  | r :: t, j => by
    rw [findRow, findRow_eq s t (j + 1), List.length_cons, List.range_succ_eq_map, List.find?_cons]
    split
    · rename_i h; simp [h]
    · rename_i h
      simp only [List.getD_cons_zero, h, decide_false, List.find?_map, Option.map_map]
      simp [Function.comp_def, Nat.add_assoc, Nat.add_comm 1]

/-! ### Puncture runs (46_puncture.md R278, R279) -/

/-- A puncture run keeps the buffer canonical and inside its size. -/
theorem punctLoop_legal (r : RunInput) (cap size : Nat) (hc : cap ≤ 8 * size) :
    ∀ (left i o p : Nat) (out : Memory), BufferLegal size out → BufferLegal size (punctLoop r cap left i o p out).2
  | 0, _, _, _, _, h => h
  | left + 1, i, o, p, out, h => by
    rw [punctLoop]
    split
    · exact h
    · split
      · exact punctLoop_legal r cap size hc left _ _ _ _
          ⟨setBit_wf _ _ _ h.1, setBit_bound _ _ _ _ (by omega) h.2⟩
      · exact punctLoop_legal r cap size hc left _ _ _ _ h

/-- A depuncture run keeps the buffer canonical and inside its size. -/
theorem depunctLoop_legal (r : RunInput) (nbits size : Nat) :
    ∀ (left o j p : Nat) (out : Memory), left + o ≤ 8 * size → BufferLegal size out →
      BufferLegal size (depunctLoop r nbits left o j p out).2.2
  | 0, _, _, _, _, _, h => h
  | left + 1, o, j, p, out, hl, h => by
    rw [depunctLoop]
    split
    · split
      · exact h
      · exact depunctLoop_legal r nbits size left _ _ _ _ (by omega)
          ⟨setBit_wf _ _ _ h.1, setBit_bound _ _ _ _ (by omega) h.2⟩
    · exact depunctLoop_legal r nbits size left _ _ _ _ (by omega)
        ⟨setBit_wf _ _ _ h.1, setBit_bound _ _ _ _ (by omega) h.2⟩

/-! ### Words and samples -/

/-- A concatenation as a sum. -/
theorem toNat_append_eq {m n : Nat} (x : BitVec m) (y : BitVec n) : (x ++ y).toNat = x.toNat * 2 ^ n + y.toNat := by
  rw [BitVec.toNat_append, ← Nat.shiftLeft_add_eq_or_of_lt y.isLt, Nat.shiftLeft_eq]

theorem flip_high_bit (h : BitVec 8) : (h ^^^ 0x80#8).toNat = (h.toNat + 128) % 256 := by
  revert h; decide +kernel

/-- Flipping the sign bit of a sample adds 32768 modulo 65536. -/
theorem flip_sign_toNat (x : BitVec 16) : (x ^^^ 0x8000#16).toNat = (x.toNat + 32768) % 65536 := by
  have hx : x = x.extractLsb' 8 8 ++ x.extractLsb' 0 8 := by
    apply BitVec.eq_of_toNat_eq
    rw [toNat_append_eq]
    simp only [BitVec.extractLsb'_toNat, Nat.shiftRight_eq_div_pow]
    have := x.isLt
    omega
  have hc : (0x8000#16 : BitVec 16) = 0x80#8 ++ 0#8 := by decide
  rw [hx, hc, BitVec.xor_append, toNat_append_eq, toNat_append_eq, flip_high_bit, BitVec.xor_zero]
  have := (x.extractLsb' 8 8).isLt
  have := (x.extractLsb' 0 8).isLt
  omega

/-- The biased sample (47_dsp_conditioning.md R311) is the sample with its sign bit flipped. -/
theorem biased_toInt (x : BitVec 16) : biased x.toInt = (x ^^^ 0x8000#16).toNat := by
  rw [flip_sign_toNat, biased, BitVec.toInt_eq_toNat_cond]
  have := x.isLt
  split <;> omega

/-- A sample lies in -32768 .. 32767 (00_scope.md R16). -/
theorem argS16_range (arg : Word) : -32768 ≤ argS16 arg ∧ argS16 arg ≤ 32767 := by
  have := BitVec.toInt_lt (x := arg.setWidth 16)
  have := BitVec.le_toInt (x := arg.setWidth 16)
  simp [argS16] at *; omega

end Sys2Proof.Machine
end

