-- ==== Sys2Proof/Laws/Golay.lean ====
section
/-! SUPPORT. When an encode table is legal (45_golay.md R240): the code is linear, so twelve basis words show that the
transpose inverts the table, and one walk over the sums of the twelve generator words shows the minimum distance. -/

namespace Sys2Proof.Machine

/-- The data word with bit k alone set. -/
abbrev unitWord (k : Nat) : BitVec 12 := 1#12 <<< k

/-- Below bit k + 1, a word is a word below bit k, or one with bit k added. -/
theorem lt_or_add_unitWord (v : BitVec 12) (k : Nat) (hk : k < 12) (h : v.toNat < 2 ^ (k + 1)) :
    v.toNat < 2 ^ k ∨ ∃ u : BitVec 12, u.toNat < 2 ^ k ∧ v = unitWord k ^^^ u := by
  by_cases hv : v.toNat < 2 ^ k
  · exact .inl hv
  · refine .inr ⟨unitWord k ^^^ v, ?_, by rw [← BitVec.xor_assoc, BitVec.xor_self, BitVec.zero_xor]⟩
    refine Nat.lt_pow_two_of_testBit _ fun i hi => ?_
    have hz : k + 1 ≤ i → v.toNat.testBit i = false := fun h1 =>
      Nat.testBit_lt_two_pow (lt_of_lt_of_le h (Nat.pow_le_pow_right (by decide) h1))
    rw [← BitVec.getLsbD, BitVec.getLsbD_xor, BitVec.getLsbD_shiftLeft]
    rcases Nat.lt_or_ge i (k + 1) with h1 | h1
    · obtain rfl : i = k := by omega
      have h2 : v.toNat.testBit i = true := by
        rw [Nat.testBit_eq_decide_div_mod_eq]
        have : v.toNat / 2 ^ i = 1 := Nat.div_eq_of_lt_le (by omega) (by rw [pow_succ] at h; omega)
        simp [this]
      simp [hk, BitVec.getLsbD, h2]
    · rw [show v.getLsbD i = false from hz h1, show (1#12).getLsbD (i - k) = false by simp; omega]
      simp

/-- What holds of 0 and is kept by adding any unit word holds of every word. -/
theorem unitWord_induction {P : BitVec 12 → Prop} (h0 : P 0#12)
    (hs : ∀ (k : Nat) (u : BitVec 12), k < 12 → P u → P (unitWord k ^^^ u)) (v : BitVec 12) : P v := by
  suffices h : ∀ k, k ≤ 12 → ∀ v : BitVec 12, v.toNat < 2 ^ k → P v from h 12 (by decide) v v.isLt
  intro k
  induction k with
  | zero =>
    intro _ v hv
    obtain rfl : v = 0#12 := BitVec.eq_of_toNat_eq (by simpa using hv)
    exact h0
  | succ k ih =>
    intro hk v hv
    rcases lt_or_add_unitWord v k hk hv with h | ⟨u, hu, rfl⟩
    · exact ih (by omega) v h
    · exact hs k u hk (ih (by omega) u hu)

@[simp] theorem csum_zero (ge : List (BitVec 12)) : csum ge 0#12 = 0#12 := by
  have h := csum_xor ge 0#12 0#12
  simpa using h

@[simp] theorem mulD_zero (ge : List (BitVec 12)) : mulD ge 0#12 = 0#12 := by
  have h := mulD_xor ge 0#12 0#12
  simpa using h

/-- The code is linear. -/
theorem codeword_xor (ge : List (BitVec 12)) (a b : BitVec 12) :
    codeword ge (a ^^^ b) = codeword ge a ^^^ codeword ge b := by
  rw [codeword, codeword, codeword, csum_xor, BitVec.xor_append]

@[simp] theorem codeword_zero (ge : List (BitVec 12)) : codeword ge 0#12 = 0#24 := by
  rw [codeword, csum_zero]; rfl

/-- The data half of a codeword is the data, so only 0 has the codeword 0. -/
theorem codeword_ne_zero (ge : List (BitVec 12)) {v : BitVec 12} (h : v ≠ 0#12) : codeword ge v ≠ 0#24 := by
  intro hc
  apply h
  have hd : (codeword ge v).extractLsb' 12 12 = 0#12 := by rw [hc]; rfl
  rw [← hd, codeword]
  ext i hi
  rw [BitVec.getElem_extractLsb', BitVec.getLsbD_append, if_neg (by omega), Nat.add_sub_cancel_left,
    BitVec.getLsbD_eq_getElem hi]

/-- The transpose inverts the table if it does on the twelve unit words. -/
theorem mulD_csum_of_units (ge : List (BitVec 12))
    (h : ∀ k < 12, mulD ge (csum ge (unitWord k)) = unitWord k) (v : BitVec 12) : mulD ge (csum ge v) = v :=
  unitWord_induction (P := fun v => mulD ge (csum ge v) = v) (by simp)
    (fun k u hk hu => by rw [csum_xor, mulD_xor, h k hk, hu]) v

/-- The ones among the low bits of a number. -/
def ones : Nat → Nat → Nat
  | 0, _ => 0
  | n + 1, m => m % 2 + ones n (m / 2)

theorem countP_testBit (n : Nat) : ∀ m : Nat, (List.range n).countP (fun j => m.testBit j) = ones n m := by
  induction n with
  | zero => intro m; rfl
  | succ n ih =>
    intro m
    rw [List.range_succ_eq_map, List.countP_cons, List.countP_map, ones, ← ih (m / 2)]
    have : (fun j => m.testBit j) ∘ Nat.succ = fun j => (m / 2).testBit j := by
      funext j; simp [Nat.testBit_succ]
    rw [this, Nat.testBit_zero]
    rcases Nat.mod_two_eq_zero_or_one m with h | h <;> simp [h, Nat.add_comm]

/-- The weight of a word, counted from its number. -/
theorem weight_eq_ones {n : Nat} (v : BitVec n) : weight v = ones n v.toNat := countP_testBit n v.toNat

/-- Every sum of `acc` and some of the rows is 0 or has at least eight ones. -/
def spanFar : List (BitVec 24) → BitVec 24 → Bool
  | [], acc => acc.toNat == 0 || Nat.ble 8 (ones 24 acc.toNat)
  | r :: rs, acc => spanFar rs acc && spanFar rs (acc ^^^ r)

/-- The codewords of the unit words below bit k, the highest first. -/
def generators (ge : List (BitVec 12)) : Nat → List (BitVec 24)
  | 0 => []
  | k + 1 => codeword ge (unitWord k) :: generators ge k

theorem spanFar_codeword (ge : List (BitVec 12)) : ∀ (k : Nat), k ≤ 12 → ∀ (acc : BitVec 24) (v : BitVec 12),
    spanFar (generators ge k) acc = true → v.toNat < 2 ^ k →
    acc ^^^ codeword ge v = 0#24 ∨ 8 ≤ weight (acc ^^^ codeword ge v) := by
  intro k
  induction k with
  | zero =>
    intro _ acc v h hv
    obtain rfl : v = 0#12 := BitVec.eq_of_toNat_eq (by simpa using hv)
    simp only [generators, spanFar, Bool.or_eq_true, beq_iff_eq, Nat.ble_eq] at h
    rw [codeword_zero, BitVec.xor_zero, weight_eq_ones]
    exact h.imp (fun h => BitVec.eq_of_toNat_eq h) id
  | succ k ih =>
    intro hk acc v h hv
    simp only [generators, spanFar, Bool.and_eq_true] at h
    rcases lt_or_add_unitWord v k hk hv with hu | ⟨u, hu, rfl⟩
    · exact ih (by omega) acc v h.1 hu
    · rw [codeword_xor, ← BitVec.xor_assoc]
      exact ih (by omega) _ u h.2 hu

/-- A table is legal if its transpose inverts it on the unit words and the walk over its generator words finds no
nonzero word with fewer than eight ones. -/
theorem golayLegal_of_units (ge : List (BitVec 12)) (rows : List (BitVec 24))
    (hi : ∀ k < 12, mulD ge (csum ge (unitWord k)) = unitWord k) (hr : generators ge 12 = rows)
    (hs : spanFar rows 0#24 = true) : GolayLegal ge := by
  refine ⟨mulD_csum_of_units ge hi, fun v hv => ?_⟩
  have h := spanFar_codeword ge 12 (by decide) 0#24 v (hr ▸ hs) v.isLt
  rw [BitVec.zero_xor] at h
  exact h.resolve_left (codeword_ne_zero ge hv)

end Sys2Proof.Machine
end

