-- ==== Sys2Proof/Laws/Invariant.lean ====
section
/-! SUPPORT. When each shared update keeps a state well-formed. -/

namespace Sys2Proof.Machine

/-- Mapping over a list with one entry replaced by one of the same image. -/
theorem map_set_of_eq {α : Type} (f : α → Nat) (l : List α) (k : Nat) (v d : α)
    (h : k < l.length → f v = f (l.getD k d)) : (l.set k v).map f = l.map f := by
  apply List.ext_getElem?
  intro i
  simp only [List.getElem?_map, List.getElem?_set]
  split
  · subst_vars
    split
    · rename_i hl
      simp only [List.getD, List.getElem?_eq_getElem hl] at h ⊢
      simp [h hl]
    · simp_all
  · rfl

/-- A property of every entry of a list with one entry replaced. -/
theorem forall_mem_set {α : Type} {P : α → Prop} {l : List α} {k : Nat} {v : α} (h : ∀ x ∈ l, P x)
    (hv : k < l.length → P v) : ∀ x ∈ l.set k v, P x := by
  intro x hx
  obtain ⟨i, hi, rfl⟩ := List.mem_iff_getElem.mp hx
  rw [List.length_set] at hi
  rw [List.getElem_set]
  split
  · exact hv (by omega)
  · exact h _ (List.getElem_mem hi)

section
variable {s : State} (h : Inv s)
include h

theorem Inv.setRes (r : Word) : Inv (s.setRes r) :=
  ⟨h.cfg, h.fir, h.iir, h.pwm, h.cr, h.prbs, h.pat, h.dcr, h.ng, h.inbuf, h.outbuf, h.record⟩

theorem Inv.takeEvent : Inv s.takeEvent :=
  ⟨h.cfg, h.fir, h.iir, h.pwm, h.cr, h.prbs, h.pat, h.dcr, h.ng, h.inbuf, h.outbuf, h.record⟩

theorem Inv.clearFault : Inv s.clearFault :=
  ⟨h.cfg, h.fir, h.iir, h.pwm, h.cr, h.prbs, h.pat, h.dcr, h.ng, h.inbuf, h.outbuf, .inl ⟨rfl, rfl, rfl⟩⟩

/-- A fault on a command word other than 0, which is CTRL.NOP (40_control.md R147). -/
theorem Inv.takeFault (c : Cause) (w : Command) (hw : w.cmd ≠ 0#32) : Inv (s.takeFault c w) := by
  unfold State.takeFault
  apply Inv.setRes
  unfold State.recordFault
  split
  · exact h
  · exact ⟨h.cfg, h.fir, h.iir, h.pwm, h.cr, h.prbs, h.pat, h.dcr, h.ng, h.inbuf, h.outbuf,
      .inr ⟨by show faultStatus c ∈ _; cases c <;> decide, hw⟩⟩

theorem Inv.setFir (k : Nat) (f : FirInst)
    (hf : f.taps.length = (s.firAt k).taps.length ∧ f.hist.length = (s.firAt k).hist.length) : Inv (s.setFir k f) :=
  ⟨h.cfg, ⟨(map_set_of_eq _ _ _ _ (FirInst.powerOn 0) fun _ => hf.1).trans h.fir.1,
    (map_set_of_eq _ _ _ _ (FirInst.powerOn 0) fun _ => hf.2).trans h.fir.2⟩,
   h.iir, h.pwm, h.cr, h.prbs, h.pat, h.dcr, h.ng, h.inbuf, h.outbuf, h.record⟩

theorem Inv.setIir (k : Nat) (f : IirInst)
    (hf : f.num.length = (s.iirAt k).num.length ∧ f.den.length = (s.iirAt k).den.length ∧
      f.w.length = (s.iirAt k).w.length) : Inv (s.setIir k f) :=
  ⟨h.cfg, h.fir, ⟨(map_set_of_eq _ _ _ _ (IirInst.powerOn 0) fun _ => hf.1).trans h.iir.1,
    (map_set_of_eq _ _ _ _ (IirInst.powerOn 0) fun _ => hf.2.1).trans h.iir.2.1,
    (map_set_of_eq _ _ _ _ (IirInst.powerOn 0) fun _ => hf.2.2).trans h.iir.2.2⟩,
   h.pwm, h.cr, h.prbs, h.pat, h.dcr, h.ng, h.inbuf, h.outbuf, h.record⟩

theorem Inv.setPwm (k : Nat) (p : PwmInst) : Inv (s.setPwm k p) :=
  ⟨h.cfg, h.fir, h.iir, List.length_set.trans h.pwm, h.cr, h.prbs, h.pat, h.dcr, h.ng, h.inbuf, h.outbuf, h.record⟩

theorem Inv.setCr (k : Nat) (c : CrInst) (hc : k < s.cr.length → CrLegal s.cfg.sps c) : Inv (s.setCr k c) :=
  ⟨h.cfg, h.fir, h.iir, h.pwm, ⟨List.length_set.trans h.cr.1, forall_mem_set h.cr.2 hc⟩, h.prbs, h.pat, h.dcr, h.ng,
   h.inbuf, h.outbuf, h.record⟩

theorem Inv.setPrbs (k : Nat) (p : PrbsInst) (hp : k < s.prbs.length → PrbsLegal p) : Inv (s.setPrbs k p) :=
  ⟨h.cfg, h.fir, h.iir, h.pwm, h.cr, ⟨List.length_set.trans h.prbs.1, forall_mem_set h.prbs.2 hp⟩, h.pat, h.dcr, h.ng,
   h.inbuf, h.outbuf, h.record⟩

theorem Inv.setSlot (k : Nat) (p : PatSlot) (hp : k < s.pat.length → SlotLegal s.cfg.pmax p) : Inv (s.setSlot k p) :=
  ⟨h.cfg, h.fir, h.iir, h.pwm, h.cr, h.prbs, ⟨List.length_set.trans h.pat.1, forall_mem_set h.pat.2 hp⟩, h.dcr, h.ng,
   h.inbuf, h.outbuf, h.record⟩

theorem Inv.setDcr (k : Nat) (d : DcrInst) : Inv (s.setDcr k d) :=
  ⟨h.cfg, h.fir, h.iir, h.pwm, h.cr, h.prbs, h.pat, List.length_set.trans h.dcr, h.ng, h.inbuf, h.outbuf, h.record⟩

theorem Inv.setNg (k : Nat) (g : NgInst) : Inv (s.setNg k g) :=
  ⟨h.cfg, h.fir, h.iir, h.pwm, h.cr, h.prbs, h.pat, h.dcr, List.length_set.trans h.ng, h.inbuf, h.outbuf, h.record⟩

theorem Inv.setInbuf (m : Memory) (hm : BufferLegal s.cfg.pbufBytes m) : Inv (s.setInbuf m) :=
  ⟨h.cfg, h.fir, h.iir, h.pwm, h.cr, h.prbs, h.pat, h.dcr, h.ng, hm, h.outbuf, h.record⟩

theorem Inv.setOutbuf (m : Memory) (hm : BufferLegal s.cfg.pbufBytes m) : Inv (s.setOutbuf m) :=
  ⟨h.cfg, h.fir, h.iir, h.pwm, h.cr, h.prbs, h.pat, h.dcr, h.ng, h.inbuf, hm, h.record⟩

end

end Sys2Proof.Machine
end

