-- ==== Sys2Proof/Laws/PerInstr.lean ====
section
/-! SUPPORT. Statements for all instructions, one lemma per constructor of Instr. -/

namespace Sys2Proof.Laws.EncodesReservedZero

/-- The command word of an instruction has RSV = 0: "reserved; must be 0 in every command" (30_encoding.md R111). -/
def Statement (i : Instr) : Prop := (fieldsOf (encode i).cmd).rsv = 0

theorem ctrlNop (arg : Word) : Statement (.ctrlNop arg) := rsv_fieldsOf_encode _
theorem ctrlRstall (arg : Word) : Statement (.ctrlRstall arg) := rsv_fieldsOf_encode _
theorem ctrlRdstatus (arg : Word) : Statement (.ctrlRdstatus arg) := rsv_fieldsOf_encode _
theorem ctrlClrerr (arg : Word) : Statement (.ctrlClrerr arg) := rsv_fieldsOf_encode _
theorem ctrlRdid (arg : Word) : Statement (.ctrlRdid arg) := rsv_fieldsOf_encode _
theorem ctrlRdparam (n : Nat) (arg : Word) : Statement (.ctrlRdparam n arg) := rsv_fieldsOf_encode _
theorem ctrlRdfcmd (arg : Word) : Statement (.ctrlRdfcmd arg) := rsv_fieldsOf_encode _
theorem ctrlRdfarg (arg : Word) : Statement (.ctrlRdfarg arg) := rsv_fieldsOf_encode _
theorem firReset (k : Nat) (arg : Word) : Statement (.firReset k arg) := rsv_fieldsOf_encode _
theorem firSettap (k n : Nat) (arg : Word) : Statement (.firSettap k n arg) := rsv_fieldsOf_encode _
theorem firStep (k : Nat) (arg : Word) : Statement (.firStep k arg) := rsv_fieldsOf_encode _
theorem firStepf (k : Nat) (arg : Word) : Statement (.firStepf k arg) := rsv_fieldsOf_encode _
theorem firRdtap (k n : Nat) (arg : Word) : Statement (.firRdtap k n arg) := rsv_fieldsOf_encode _
theorem firRdhist (k n : Nat) (arg : Word) : Statement (.firRdhist k n arg) := rsv_fieldsOf_encode _
theorem firRdn (k : Nat) (arg : Word) : Statement (.firRdn k arg) := rsv_fieldsOf_encode _
theorem iirReset (k : Nat) (arg : Word) : Statement (.iirReset k arg) := rsv_fieldsOf_encode _
theorem iirSetnum (k n : Nat) (arg : Word) : Statement (.iirSetnum k n arg) := rsv_fieldsOf_encode _
theorem iirSetden (k n : Nat) (arg : Word) : Statement (.iirSetden k n arg) := rsv_fieldsOf_encode _
theorem iirStep (k : Nat) (arg : Word) : Statement (.iirStep k arg) := rsv_fieldsOf_encode _
theorem iirStepf (k : Nat) (arg : Word) : Statement (.iirStepf k arg) := rsv_fieldsOf_encode _
theorem iirRdnum (k n : Nat) (arg : Word) : Statement (.iirRdnum k n arg) := rsv_fieldsOf_encode _
theorem iirRdden (k n : Nat) (arg : Word) : Statement (.iirRdden k n arg) := rsv_fieldsOf_encode _
theorem iirRdhist (k n : Nat) (arg : Word) : Statement (.iirRdhist k n arg) := rsv_fieldsOf_encode _
theorem iirRdn (k : Nat) (arg : Word) : Statement (.iirRdn k arg) := rsv_fieldsOf_encode _
theorem pwmReset (k : Nat) (arg : Word) : Statement (.pwmReset k arg) := rsv_fieldsOf_encode _
theorem pwmStep (k : Nat) (arg : Word) : Statement (.pwmStep k arg) := rsv_fieldsOf_encode _
theorem pwmRdcoef (k n : Nat) (arg : Word) : Statement (.pwmRdcoef k n arg) := rsv_fieldsOf_encode _
theorem pwmRdstate (k n : Nat) (arg : Word) : Statement (.pwmRdstate k n arg) := rsv_fieldsOf_encode _
theorem crReset (k : Nat) (arg : Word) : Statement (.crReset k arg) := rsv_fieldsOf_encode _
theorem crSample (k : Nat) (arg : Word) : Statement (.crSample k arg) := rsv_fieldsOf_encode _
theorem crUpdate (k : Nat) (arg : Word) : Statement (.crUpdate k arg) := rsv_fieldsOf_encode _
theorem crGetsp (k : Nat) (arg : Word) : Statement (.crGetsp k arg) := rsv_fieldsOf_encode _
theorem crRdenergy (k n : Nat) (arg : Word) : Statement (.crRdenergy k n arg) := rsv_fieldsOf_encode _
theorem crRdcount (k : Nat) (arg : Word) : Statement (.crRdcount k arg) := rsv_fieldsOf_encode _
theorem crRdcursor (k : Nat) (arg : Word) : Statement (.crRdcursor k arg) := rsv_fieldsOf_encode _
theorem crRdprev (k : Nat) (arg : Word) : Statement (.crRdprev k arg) := rsv_fieldsOf_encode _
theorem prbsReset (k : Nat) (arg : Word) : Statement (.prbsReset k arg) := rsv_fieldsOf_encode _
theorem prbsGen (k : Nat) (arg : Word) : Statement (.prbsGen k arg) := rsv_fieldsOf_encode _
theorem prbsSync (k : Nat) (arg : Word) : Statement (.prbsSync k arg) := rsv_fieldsOf_encode _
theorem prbsValidate (k : Nat) (arg : Word) : Statement (.prbsValidate k arg) := rsv_fieldsOf_encode _
theorem prbsRdstate (k : Nat) (arg : Word) : Statement (.prbsRdstate k arg) := rsv_fieldsOf_encode _
theorem golayCsum (arg : Word) : Statement (.golayCsum arg) := rsv_fieldsOf_encode _
theorem golayEnc (arg : Word) : Statement (.golayEnc arg) := rsv_fieldsOf_encode _
theorem golayDetect (arg : Word) : Statement (.golayDetect arg) := rsv_fieldsOf_encode _
theorem golayDecode (arg : Word) : Statement (.golayDecode arg) := rsv_fieldsOf_encode _
theorem puncWrin (n : Nat) (arg : Word) : Statement (.puncWrin n arg) := rsv_fieldsOf_encode _
theorem puncRdin (n : Nat) (arg : Word) : Statement (.puncRdin n arg) := rsv_fieldsOf_encode _
theorem puncWrout (n : Nat) (arg : Word) : Statement (.puncWrout n arg) := rsv_fieldsOf_encode _
theorem puncRdout (n : Nat) (arg : Word) : Statement (.puncRdout n arg) := rsv_fieldsOf_encode _
theorem puncSetpat (slot n : Nat) (arg : Word) : Statement (.puncSetpat slot n arg) := rsv_fieldsOf_encode _
theorem puncRdpat (slot n : Nat) (arg : Word) : Statement (.puncRdpat slot n arg) := rsv_fieldsOf_encode _
theorem puncSetplen (slot : Nat) (arg : Word) : Statement (.puncSetplen slot arg) := rsv_fieldsOf_encode _
theorem puncRdplen (slot : Nat) (arg : Word) : Statement (.puncRdplen slot arg) := rsv_fieldsOf_encode _
theorem puncPunct (slot : Nat) (arg : Word) : Statement (.puncPunct slot arg) := rsv_fieldsOf_encode _
theorem puncDepunct (slot : Nat) (arg : Word) : Statement (.puncDepunct slot arg) := rsv_fieldsOf_encode _
theorem dcrReset (k : Nat) (arg : Word) : Statement (.dcrReset k arg) := rsv_fieldsOf_encode _
theorem dcrSetalpha (k : Nat) (arg : Word) : Statement (.dcrSetalpha k arg) := rsv_fieldsOf_encode _
theorem dcrStep (k : Nat) (arg : Word) : Statement (.dcrStep k arg) := rsv_fieldsOf_encode _
theorem dcrRdalpha (k : Nat) (arg : Word) : Statement (.dcrRdalpha k arg) := rsv_fieldsOf_encode _
theorem dcrRdstate (k n : Nat) (arg : Word) : Statement (.dcrRdstate k n arg) := rsv_fieldsOf_encode _
theorem ngReset (k : Nat) (arg : Word) : Statement (.ngReset k arg) := rsv_fieldsOf_encode _
theorem ngSetcfg (k n : Nat) (arg : Word) : Statement (.ngSetcfg k n arg) := rsv_fieldsOf_encode _
theorem ngStep (k : Nat) (arg : Word) : Statement (.ngStep k arg) := rsv_fieldsOf_encode _
theorem ngRdcfg (k n : Nat) (arg : Word) : Statement (.ngRdcfg k n arg) := rsv_fieldsOf_encode _
theorem ngRdstate (k n : Nat) (arg : Word) : Statement (.ngRdstate k n arg) := rsv_fieldsOf_encode _
theorem convNeg (arg : Word) : Statement (.convNeg arg) := rsv_fieldsOf_encode _
theorem convS16tou12 (arg : Word) : Statement (.convS16tou12 arg) := rsv_fieldsOf_encode _
theorem convS16tou8 (arg : Word) : Statement (.convS16tou8 arg) := rsv_fieldsOf_encode _
theorem convU12tos16 (arg : Word) : Statement (.convU12tos16 arg) := rsv_fieldsOf_encode _
theorem convU8tos16 (arg : Word) : Statement (.convU8tos16 arg) := rsv_fieldsOf_encode _

end Sys2Proof.Laws.EncodesReservedZero
end

