-- ==== Sys2Proof/Tests/Slice0.lean ====
section
/-! SUPPORT. The model's own tests: the well-formedness checks, every row's decoding from words written out from
30_encoding.md R114, one or two single steps for each command with the results the spec's own examples and
95_test_vectors.md give, and for every statement with hypotheses a concrete state and operands that meet them. -/

namespace Sys2Proof.Tests

-- One theorem at a time: each kernel evaluation waits for the theorems before it.
set_option Elab.async false

open Sys2Proof Sys2Proof.Machine

/-! ### Helpers -/

/-- The test coefficients PWM_COEF_T of 95_test_vectors.md. -/
def coefT : PwmCoef := ⟨0x3F000000#32, 0x3E800000#32, 0x3E000000#32, 0xBF000000#32, 0x3E800000#32⟩

/-- DEFAULT (00_scope.md R7) with PWM_COEF_T, so that every value is known. -/
def cfgT : Config := Config.defaultWith coefT

/-- The machine at power-on. -/
def s0 : State := State.powerOn cfgT

/-- The machine after one command, given by its words. -/
def after (s : State) (cmd arg : Word) : Option State :=
  match runCommand ⟨cmd, arg⟩ s with
  | .next t => some t
  | _ => none

/-- RES of one command. -/
def resOf (s : State) (cmd arg : Word) : Option Word := (after s cmd arg).map State.res

/-- One observation of the machine after one command. -/
def seen {α : Type} (s : State) (cmd arg : Word) (f : State → α) : Option α := (after s cmd arg).map f

/-- The fault record after one command: RES, STATUS, FAULTCMD, FAULTARG. -/
def record (t : State) : List Word := [t.res, t.status, t.faultCmd, t.faultArg]

/-- A filter 0 of the FIR bank. -/
def withFir (taps hist : List F32) : State := s0.setFir 0 ⟨taps, hist⟩

/-- A filter 0 of the IIR bank. -/
def withIir (num den w : List F32) : State := s0.setIir 0 ⟨num, den, w⟩

/-- A clock-recovery copy 0. -/
def withCr (energy : List Int) (prev : Int) (cursor nsamp sp : Nat) : State :=
  s0.setCr 0 ⟨energy.map (BitVec.ofInt 32), BitVec.ofInt 16 prev, cursor, BitVec.ofNat 32 nsamp, sp⟩

/-- The pattern P2 of 46_puncture.md R280: eleven keeps and a drop. -/
def p2 : PatSlot := ⟨List.replicate 11 true ++ List.replicate 53 false, 12⟩

/-- The alternative table of 45_golay.md R248. -/
def otherGolayE : List (BitVec 12) :=
  [0xC75#12, 0x49F#12, 0xD4B#12, 0x6E3#12, 0x9B3#12, 0xB66#12, 0xECC#12, 0x1ED#12, 0x3DA#12, 0x7B4#12, 0xB1D#12, 0xE3A#12]

/-- The test parameters with R248's table, whose legality these tests prove. -/
def cfgAlt : Config := { cfgT with golayE := otherGolayE }

/-- Pattern slot 1 with P2, and the buffers, in a machine built with R248's table. -/
def withBufs (inbuf outbuf : Memory) : State := (((State.powerOn cfgAlt).setSlot 1 p2).setInbuf inbuf).setOutbuf outbuf

/-- The noise gate of 95_test_vectors.md, configuration G, with the given HOLDTIME, HOLD and SG. -/
def withNg (holdtime hold sg : F32) : State :=
  s0.setNg 0 ⟨0x42C80000#32, 0x3F000000#32, 0x3F000000#32, holdtime, 0x3903126F#32, hold, sg⟩

/-! ### Well-formedness: each check refuses an ill-formed term -/

theorem test_wf_instance_field : (Instr.firReset 15 0#32).wf = true ∧ (Instr.firReset 16 0#32).wf = false := by decide

theorem test_wf_slot_field : (Instr.puncPunct 15 0#32).wf = true ∧ (Instr.puncPunct 16 0#32).wf = false := by decide

theorem test_wf_index_field :
    (Instr.ctrlRdparam 4095 0#32).wf = true ∧ (Instr.ctrlRdparam 4096 0#32).wf = false := by decide

theorem test_wf_both_fields :
    (Instr.firSettap 15 4095 0#32).wf = true ∧ (Instr.firSettap 16 0 0#32).wf = false ∧
    (Instr.firSettap 0 4096 0#32).wf = false := by decide

/-! ### Decoding, one word for each row of 30_encoding.md R114, written out field by field: UNIT, OP, INST, IDX, RSV -/

theorem test_decode_ctrl :
    decode ⟨0b0000_0000_0000_000000000000_00000000#32, 0x80000000#32⟩ = .ok (.ctrlNop 0x80000000#32) ∧
    decode ⟨0b0000_0001_0000_000000000000_00000000#32, 0x81010101#32⟩ = .ok (.ctrlRstall 0x81010101#32) ∧
    decode ⟨0b0000_0010_0000_000000000000_00000000#32, 0x82020202#32⟩ = .ok (.ctrlRdstatus 0x82020202#32) ∧
    decode ⟨0b0000_0011_0000_000000000000_00000000#32, 0x83030303#32⟩ = .ok (.ctrlClrerr 0x83030303#32) ∧
    decode ⟨0b0000_0100_0000_000000000000_00000000#32, 0x84040404#32⟩ = .ok (.ctrlRdid 0x84040404#32) ∧
    decode ⟨0b0000_0101_0000_101100110110_00000000#32, 0x85050505#32⟩ = .ok (.ctrlRdparam 2870 0x85050505#32) ∧
    decode ⟨0b0000_0110_0000_000000000000_00000000#32, 0x86060606#32⟩ = .ok (.ctrlRdfcmd 0x86060606#32) ∧
    decode ⟨0b0000_0111_0000_000000000000_00000000#32, 0x87070707#32⟩ = .ok (.ctrlRdfarg 0x87070707#32) := by
  decide +kernel

theorem test_decode_fir :
    decode ⟨0b0001_0000_0001_000000000000_00000000#32, 0x88080808#32⟩ = .ok (.firReset 1 0x88080808#32) ∧
    decode ⟨0b0001_0001_0110_110000101010_00000000#32, 0x89090909#32⟩ = .ok (.firSettap 6 3114 0x89090909#32) ∧
    decode ⟨0b0001_0010_1011_000000000000_00000000#32, 0x8A0A0A0A#32⟩ = .ok (.firStep 11 0x8A0A0A0A#32) ∧
    decode ⟨0b0001_0011_0000_000000000000_00000000#32, 0x8B0B0B0B#32⟩ = .ok (.firStepf 0 0x8B0B0B0B#32) ∧
    decode ⟨0b0001_0100_0101_110011100001_00000000#32, 0x8C0C0C0C#32⟩ = .ok (.firRdtap 5 3297 0x8C0C0C0C#32) ∧
    decode ⟨0b0001_0101_1010_110100011110_00000000#32, 0x8D0D0D0D#32⟩ = .ok (.firRdhist 10 3358 0x8D0D0D0D#32) ∧
    decode ⟨0b0001_0110_1111_000000000000_00000000#32, 0x8E0E0E0E#32⟩ = .ok (.firRdn 15 0x8E0E0E0E#32) := by
  decide +kernel

theorem test_decode_iir :
    decode ⟨0b0010_0000_0100_000000000000_00000000#32, 0x8F0F0F0F#32⟩ = .ok (.iirReset 4 0x8F0F0F0F#32) ∧
    decode ⟨0b0010_0001_1001_110111010101_00000000#32, 0x90101010#32⟩ = .ok (.iirSetnum 9 3541 0x90101010#32) ∧
    decode ⟨0b0010_0010_1110_111000010010_00000000#32, 0x91111111#32⟩ = .ok (.iirSetden 14 3602 0x91111111#32) ∧
    decode ⟨0b0010_0011_0011_000000000000_00000000#32, 0x92121212#32⟩ = .ok (.iirStep 3 0x92121212#32) ∧
    decode ⟨0b0010_0100_1000_000000000000_00000000#32, 0x93131313#32⟩ = .ok (.iirStepf 8 0x93131313#32) ∧
    decode ⟨0b0010_0101_1101_111011001001_00000000#32, 0x94141414#32⟩ = .ok (.iirRdnum 13 3785 0x94141414#32) ∧
    decode ⟨0b0010_0110_0010_111100000110_00000000#32, 0x95151515#32⟩ = .ok (.iirRdden 2 3846 0x95151515#32) ∧
    decode ⟨0b0010_0111_0111_111101000011_00000000#32, 0x96161616#32⟩ = .ok (.iirRdhist 7 3907 0x96161616#32) ∧
    decode ⟨0b0010_1000_1100_000000000000_00000000#32, 0x97171717#32⟩ = .ok (.iirRdn 12 0x97171717#32) := by
  decide +kernel

theorem test_decode_pwm :
    decode ⟨0b0011_0000_0001_000000000000_00000000#32, 0x98181818#32⟩ = .ok (.pwmReset 1 0x98181818#32) ∧
    decode ⟨0b0011_0001_0110_000000000000_00000000#32, 0x99191919#32⟩ = .ok (.pwmStep 6 0x99191919#32) ∧
    decode ⟨0b0011_0010_1011_000000110111_00000000#32, 0x9A1A1A1A#32⟩ = .ok (.pwmRdcoef 11 55 0x9A1A1A1A#32) ∧
    decode ⟨0b0011_0011_0000_000001110100_00000000#32, 0x9B1B1B1B#32⟩ = .ok (.pwmRdstate 0 116 0x9B1B1B1B#32) := by
  decide +kernel

theorem test_decode_cr :
    decode ⟨0b0100_0000_0101_000000000000_00000000#32, 0x9C1C1C1C#32⟩ = .ok (.crReset 5 0x9C1C1C1C#32) ∧
    decode ⟨0b0100_0001_1010_000000000000_00000000#32, 0x9D1D1D1D#32⟩ = .ok (.crSample 10 0x9D1D1D1D#32) ∧
    decode ⟨0b0100_0010_1111_000000000000_00000000#32, 0x9E1E1E1E#32⟩ = .ok (.crUpdate 15 0x9E1E1E1E#32) ∧
    decode ⟨0b0100_0011_0100_000000000000_00000000#32, 0x9F1F1F1F#32⟩ = .ok (.crGetsp 4 0x9F1F1F1F#32) ∧
    decode ⟨0b0100_0100_1001_000110100101_00000000#32, 0xA0202020#32⟩ = .ok (.crRdenergy 9 421 0xA0202020#32) ∧
    decode ⟨0b0100_0101_1110_000000000000_00000000#32, 0xA1212121#32⟩ = .ok (.crRdcount 14 0xA1212121#32) ∧
    decode ⟨0b0100_0110_0011_000000000000_00000000#32, 0xA2222222#32⟩ = .ok (.crRdcursor 3 0xA2222222#32) ∧
    decode ⟨0b0100_0111_1000_000000000000_00000000#32, 0xA3232323#32⟩ = .ok (.crRdprev 8 0xA3232323#32) := by
  decide +kernel

theorem test_decode_prbs :
    decode ⟨0b0101_0000_1101_000000000000_00000000#32, 0xA4242424#32⟩ = .ok (.prbsReset 13 0xA4242424#32) ∧
    decode ⟨0b0101_0001_0010_000000000000_00000000#32, 0xA5252525#32⟩ = .ok (.prbsGen 2 0xA5252525#32) ∧
    decode ⟨0b0101_0010_0111_000000000000_00000000#32, 0xA6262626#32⟩ = .ok (.prbsSync 7 0xA6262626#32) ∧
    decode ⟨0b0101_0011_1100_000000000000_00000000#32, 0xA7272727#32⟩ = .ok (.prbsValidate 12 0xA7272727#32) ∧
    decode ⟨0b0101_0100_0001_000000000000_00000000#32, 0xA8282828#32⟩ = .ok (.prbsRdstate 1 0xA8282828#32) := by
  decide +kernel

theorem test_decode_golay :
    decode ⟨0b0110_0000_0000_000000000000_00000000#32, 0xA9292929#32⟩ = .ok (.golayCsum 0xA9292929#32) ∧
    decode ⟨0b0110_0001_0000_000000000000_00000000#32, 0xAA2A2A2A#32⟩ = .ok (.golayEnc 0xAA2A2A2A#32) ∧
    decode ⟨0b0110_0010_0000_000000000000_00000000#32, 0xAB2B2B2B#32⟩ = .ok (.golayDetect 0xAB2B2B2B#32) ∧
    decode ⟨0b0110_0011_0000_000000000000_00000000#32, 0xAC2C2C2C#32⟩ = .ok (.golayDecode 0xAC2C2C2C#32) := by
  decide +kernel

theorem test_decode_punc :
    decode ⟨0b0111_0000_0000_010010111110_00000000#32, 0xAD2D2D2D#32⟩ = .ok (.puncWrin 1214 0xAD2D2D2D#32) ∧
    decode ⟨0b0111_0001_0000_010011111011_00000000#32, 0xAE2E2E2E#32⟩ = .ok (.puncRdin 1275 0xAE2E2E2E#32) ∧
    decode ⟨0b0111_0010_0000_010100111000_00000000#32, 0xAF2F2F2F#32⟩ = .ok (.puncWrout 1336 0xAF2F2F2F#32) ∧
    decode ⟨0b0111_0011_0000_010101110101_00000000#32, 0xB0303030#32⟩ = .ok (.puncRdout 1397 0xB0303030#32) ∧
    decode ⟨0b0111_0100_1110_010110110010_00000000#32, 0xB1313131#32⟩ = .ok (.puncSetpat 14 1458 0xB1313131#32) ∧
    decode ⟨0b0111_0101_0011_010111101111_00000000#32, 0xB2323232#32⟩ = .ok (.puncRdpat 3 1519 0xB2323232#32) ∧
    decode ⟨0b0111_0110_1000_000000000000_00000000#32, 0xB3333333#32⟩ = .ok (.puncSetplen 8 0xB3333333#32) ∧
    decode ⟨0b0111_0111_1101_000000000000_00000000#32, 0xB4343434#32⟩ = .ok (.puncRdplen 13 0xB4343434#32) ∧
    decode ⟨0b0111_1000_0010_000000000000_00000000#32, 0xB5353535#32⟩ = .ok (.puncPunct 2 0xB5353535#32) ∧
    decode ⟨0b0111_1001_0111_000000000000_00000000#32, 0xB6363636#32⟩ = .ok (.puncDepunct 7 0xB6363636#32) := by
  decide +kernel

theorem test_decode_dcr :
    decode ⟨0b1000_0000_1100_000000000000_00000000#32, 0xB7373737#32⟩ = .ok (.dcrReset 12 0xB7373737#32) ∧
    decode ⟨0b1000_0001_0001_000000000000_00000000#32, 0xB8383838#32⟩ = .ok (.dcrSetalpha 1 0xB8383838#32) ∧
    decode ⟨0b1000_0010_0110_000000000000_00000000#32, 0xB9393939#32⟩ = .ok (.dcrStep 6 0xB9393939#32) ∧
    decode ⟨0b1000_0011_1011_000000000000_00000000#32, 0xBA3A3A3A#32⟩ = .ok (.dcrRdalpha 11 0xBA3A3A3A#32) ∧
    decode ⟨0b1000_0100_0000_100000010100_00000000#32, 0xBB3B3B3B#32⟩ = .ok (.dcrRdstate 0 2068 0xBB3B3B3B#32) := by
  decide +kernel

theorem test_decode_ng :
    decode ⟨0b1001_0000_0101_000000000000_00000000#32, 0xBC3C3C3C#32⟩ = .ok (.ngReset 5 0xBC3C3C3C#32) ∧
    decode ⟨0b1001_0001_1010_100010001110_00000000#32, 0xBD3D3D3D#32⟩ = .ok (.ngSetcfg 10 2190 0xBD3D3D3D#32) ∧
    decode ⟨0b1001_0010_1111_000000000000_00000000#32, 0xBE3E3E3E#32⟩ = .ok (.ngStep 15 0xBE3E3E3E#32) ∧
    decode ⟨0b1001_0011_0100_100100001000_00000000#32, 0xBF3F3F3F#32⟩ = .ok (.ngRdcfg 4 2312 0xBF3F3F3F#32) ∧
    decode ⟨0b1001_0100_1001_100101000101_00000000#32, 0xC0404040#32⟩ = .ok (.ngRdstate 9 2373 0xC0404040#32) := by
  decide +kernel

theorem test_decode_conv :
    decode ⟨0b1010_0000_0000_000000000000_00000000#32, 0xC1414141#32⟩ = .ok (.convNeg 0xC1414141#32) ∧
    decode ⟨0b1010_0001_0000_000000000000_00000000#32, 0xC2424242#32⟩ = .ok (.convS16tou12 0xC2424242#32) ∧
    decode ⟨0b1010_0010_0000_000000000000_00000000#32, 0xC3434343#32⟩ = .ok (.convS16tou8 0xC3434343#32) ∧
    decode ⟨0b1010_0011_0000_000000000000_00000000#32, 0xC4444444#32⟩ = .ok (.convU12tos16 0xC4444444#32) ∧
    decode ⟨0b1010_0100_0000_000000000000_00000000#32, 0xC5454545#32⟩ = .ok (.convU8tos16 0xC5454545#32) := by
  decide +kernel

/-- Reserved encodings (95_test_vectors.md section 2.3). -/
theorem test_decode_reserved :
    decode ⟨0xB0000000#32, 0#32⟩ = .error .illegalOpcode ∧ decode ⟨0xF0000000#32, 0#32⟩ = .error .illegalOpcode ∧
    decode ⟨0x08000000#32, 0#32⟩ = .error .illegalOpcode ∧ decode ⟨0x17000000#32, 0#32⟩ = .error .illegalOpcode ∧
    decode ⟨0x7A000000#32, 1#32⟩ = .error .illegalOpcode ∧ decode ⟨0xA5000000#32, 0#32⟩ = .error .illegalOpcode ∧
    decode ⟨0x00000001#32, 0#32⟩ = .error .reservedField ∧ decode ⟨0x00100000#32, 0#32⟩ = .error .reservedField ∧
    decode ⟨0x10000100#32, 0#32⟩ = .error .reservedField ∧ decode ⟨0x70100000#32, 1#32⟩ = .error .reservedField ∧
    decode ⟨0x76000100#32, 1#32⟩ = .error .reservedField ∧ decode ⟨0xA0100000#32, 0#32⟩ = .error .reservedField := by
  decide +kernel

/-! ### Faults (95_test_vectors.md sections 2.3 and 3.12, programs E) -/

/-- Section 2.3: one row of each cause. -/
theorem test_fault_causes :
    seen s0 0xC3000000 0x1234 record = some [0x0#32, 0x11#32, 0xC3000000#32, 0x1234#32] ∧
    seen s0 0x76000100 1 record = some [0x0#32, 0x21#32, 0x76000100#32, 1#32] ∧
    seen s0 0x10200000 0 record = some [0x0#32, 0x31#32, 0x10200000#32, 0#32] ∧
    seen s0 0x11000400 0 record = some [0x0#32, 0x41#32, 0x11000400#32, 0#32] ∧
    seen s0 0x76000000 65 record = some [0x0#32, 0x51#32, 0x76000000#32, 65#32] ∧
    seen s0 0x78000000 0x00010001 record = some [0x0#32, 0x61#32, 0x78000000#32, 0x00010001#32] := by
  decide +kernel

/-- Section 2.3: the order of the checks (R334), INST before IDX and before ARG, ARG before PLEN. -/
theorem test_fault_order :
    seen s0 0x74204000 1 State.status = some 0x31#32 ∧ seen s0 0x78500000 0x00010041 State.status = some 0x31#32 ∧
    seen s0 0x79000000 0x00400201 State.status = some 0x51#32 ∧
    seen s0 0x79000000 0x00400200 State.status = some 0x61#32 := by
  decide +kernel

/-- FA1: with ERR set a second fault gives RES 0 and is not recorded. -/
theorem test_fault_sticky :
    seen { s0 with res := 7#32, status := 0x41#32, faultCmd := 0x91000500#32, faultArg := 5#32 } 0xA5000000 9 record =
      some [0x0#32, 0x41#32, 0x91000500#32, 5#32] := by
  decide +kernel

/-- A command at the port runs, and the reset input resets (40_control.md R140, 70_reset_and_hazards.md R360). -/
theorem test_step_takes_one_event :
    (match step { s0 with issue := [.command ⟨0x04000000#32, 0#32⟩, .resetInput] } with
      | .next t => some (t.res, t.issue)
      | _ => none) = some (0x4D313707#32, [.resetInput]) ∧
    (match step { s0 with res := 5#32, status := 0x11#32, issue := [.resetInput] } with
      | .next t => some (t.res, t.status, t.issue)
      | _ => none) = some (0#32, 0#32, []) := by
  decide +kernel

/-- A placed command word is the next to run; CTRL.RDID's word has 32 bits, so ARG is 0. -/
theorem test_fetch_word_runs_next :
    (match step (s0.withFetchWord 32 0x04000000) with
      | .next t => some (t.res, t.issue)
      | _ => none) = some (0x4D313707#32, []) ∧
    decodeTableWord 32 0x11000300 = some (.firSettap 0 3 0#32) ∧
    decodeTableWord 64 0x3E80000011000300 = some (.firSettap 0 3 0x3E800000#32) ∧ decodeTableWord 32 0xB0000000 = none := by
  decide +kernel

/-! ### CTRL -/

/-- CT7. -/
theorem test_ctrl_nop : seen { s0 with res := 3#32 } 0x00000000 0xDEADBEEF record = some [0#32, 0#32, 0#32, 0#32] := by
  decide +kernel

/-- CT6: taps and the fault record stay, the history, LFSR and NSAMP are reset. -/
theorem test_ctrl_rstall :
    seen { ((withFir [0x3F800000#32, 0#32, 0#32, 0#32] [0x40E00000#32, 0#32, 0#32, 0#32]).setPrbs 0 ⟨2#9, 0#8, true⟩) with
            status := 0x11#32, faultCmd := 0xB0000000#32 } 0x01000000 0
      (fun t => (t.firAt 0, t.prbsAt 0, t.status, t.faultCmd)) =
      some (⟨[0x3F800000#32, 0#32, 0#32, 0#32], [0#32, 0#32, 0#32, 0#32]⟩, ⟨1#9, 0#8, false⟩, 0x11#32,
        0xB0000000#32) := by
  decide +kernel

/-- CT3 and program E step 4. -/
theorem test_ctrl_rdstatus :
    resOf s0 0x02000000 0 = some 0#32 ∧ resOf { s0 with status := 0x11#32 } 0x02000000 0 = some 0x11#32 := by
  decide +kernel

/-- CT5. -/
theorem test_ctrl_clrerr :
    seen { s0 with res := 1#32, status := 0x11#32, faultCmd := 0xB0000000#32, faultArg := 4#32 } 0x03000000 0 record =
      some [0#32, 0#32, 0#32, 0#32] := by
  decide +kernel

/-- CT1. -/
theorem test_ctrl_rdid : resOf s0 0x04000000 0 = some 0x4D313707#32 := by decide +kernel

/-- CT2. -/
theorem test_ctrl_rdparam :
    [resOf s0 0x05000000 0, resOf s0 0x05000100 0, resOf s0 0x05000200 0, resOf s0 0x05000300 0, resOf s0 0x05000400 0,
     resOf s0 0x05000500 0, resOf s0 0x05000600 0, resOf s0 0x05000700 0, resOf s0 0x05000800 0, resOf s0 0x05000900 0,
     resOf s0 0x05000A00 0, resOf s0 0x05000B00 0] =
      ([10#32, 2#32, 2#32, 1#32, 1#32, 2#32, 2#32, 1#32, 64#32, 64#32, 2#32, 18#32]).map some := by
  decide +kernel

/-- CT4 and program E steps 5 and 6. -/
theorem test_ctrl_rdfcmd_rdfarg :
    resOf { s0 with faultCmd := 0xC3000000#32 } 0x06000000 0 = some 0xC3000000#32 ∧
    resOf { s0 with faultArg := 0x00001234#32 } 0x07000000 0 = some 0x00001234#32 := by
  decide +kernel

/-! ### FIR -/

/-- FI11. -/
theorem test_fir_reset :
    seen (withFir [0x3E800000#32, 0#32, 0#32, 0#32] [1#32, 2#32, 3#32, 4#32]) 0x10000000 0 (fun t => t.firAt 0) =
      some ⟨[0x3E800000#32, 0#32, 0#32, 0#32], [0#32, 0#32, 0#32, 0#32]⟩ := by
  decide +kernel

/-- Section 2.3, legal commands: tap 80 of copy 1. -/
theorem test_fir_settap :
    seen s0 0x11105000 0x3F800000 (fun t => ((t.firAt 1).taps[80]?, (t.firAt 1).taps[79]?, t.status)) =
      some (some 0x3F800000#32, some 0#32, 0#32) := by
  decide +kernel

/-- FI1, the sixth step: -3 after five samples of 1000. -/
theorem test_fir_step :
    resOf (withFir (List.replicate 4 0x3E800000#32) (List.replicate 4 0x447A0000#32)) 0x12000000 0xFFFFFFFD =
      some 749#32 := by
  decide +kernel

/-- FI3, the second and the fifth step: saturation at both ends. -/
theorem test_fir_step_saturates :
    resOf (withFir (List.replicate 4 0x3F800000#32) [0x46EA6000#32, 0#32, 0#32, 0#32]) 0x12000000 30000 =
      some 32767#32 ∧
    resOf (withFir (List.replicate 4 0x3F800000#32) [0xC7000000#32, 0xC7000000#32, 0x46EA6000#32, 0x46EA6000#32])
      0x12000000 0xFFFF8000 = some 0xFFFF8000#32 := by
  decide +kernel

/-- FI5, and FI7: -inf + inf is the canonical NaN. -/
theorem test_fir_stepf :
    resOf (withFir (List.replicate 4 0x3F000000#32) (List.replicate 4 0#32)) 0x13000000 0x40400000 =
      some 0x3FC00000#32 ∧
    resOf (withFir (List.replicate 4 0x3E800000#32) [0#32, 0x7F800000#32, 0#32, 0#32]) 0x13000000 0xFF800000 =
      some 0x7FC00000#32 := by
  decide +kernel

/-- FI11. -/
theorem test_fir_rdtap :
    resOf (withFir [0#32, 0#32, 0x3E800000#32, 0#32] []) 0x14000200 0 = some 0x3E800000#32 := by
  decide +kernel

/-- FI4: index 0 is the newest. -/
theorem test_fir_rdhist :
    resOf (withFir [] [0x40400000#32, 0x40000000#32, 0x3F800000#32, 0#32]) 0x15000200 0 = some 0x3F800000#32 := by
  decide +kernel

/-- FI10. -/
theorem test_fir_rdn : resOf s0 0x16000000 0 = some 4#32 ∧ resOf s0 0x16100000 0 = some 81#32 := by decide +kernel

/-! ### IIR -/

/-- II5. -/
theorem test_iir_reset :
    seen (withIir [0x3F800000#32, 0#32, 0#32] [0x3F800000#32, 0xBF000000#32, 0#32] [5#32, 6#32]) 0x20000000 0
      (fun t => t.iirAt 0) =
      some ⟨[0x3F800000#32, 0#32, 0#32], [0x3F800000#32, 0xBF000000#32, 0#32], [0#32, 0#32]⟩ := by
  decide +kernel

/-- The two coefficient writes (R172, R173); 95_test_vectors.md section 2.2 gives the second word. -/
theorem test_iir_setnum_setden :
    seen s0 0x21000200 0x3F800000 (fun t => t.iirAt 0) =
      some ⟨[0#32, 0#32, 0x3F800000#32], [0#32, 0#32, 0#32], [0#32, 0#32]⟩ ∧
    seen s0 0x22000100 0xBF000000 (fun t => t.iirAt 0) =
      some ⟨[0#32, 0#32, 0#32], [0#32, 0xBF000000#32, 0#32], [0#32, 0#32]⟩ := by
  decide +kernel

/-- II1, the second step: 500 after 1000, the history shifted. -/
theorem test_iir_step :
    seen (withIir [0x3F800000#32, 0#32, 0#32] [0x3F800000#32, 0xBF000000#32, 0#32] [0x447A0000#32, 0#32]) 0x23000000 0
      (fun t => (t.res, (t.iirAt 0).w)) = some (500#32, [0x43FA0000#32, 0x447A0000#32]) := by
  decide +kernel

/-- II2, the second step; II4 (the numerator's history term). -/
theorem test_iir_stepf :
    resOf (withIir [0x3F800000#32, 0#32, 0#32] [0x3F800000#32, 0xBF000000#32, 0#32] [0x3F800000#32, 0#32]) 0x24000000 0 =
      some 0x3F000000#32 ∧
    resOf (withIir [0x3F000000#32, 0x3F000000#32, 0#32] [0#32, 0#32, 0#32] [0x42C80000#32, 0#32]) 0x24000000 0x42C80000 =
      some 0x42C80000#32 := by
  decide +kernel

/-- R176, R177, R178: W[1] is the newest entry. -/
theorem test_iir_readback :
    resOf (withIir [1#32, 2#32, 3#32] [4#32, 5#32, 6#32] [7#32, 8#32]) 0x25000000 0 = some 1#32 ∧
    resOf (withIir [1#32, 2#32, 3#32] [4#32, 5#32, 6#32] [7#32, 8#32]) 0x26000200 0 = some 6#32 ∧
    resOf (withIir [1#32, 2#32, 3#32] [4#32, 5#32, 6#32] [7#32, 8#32]) 0x27000100 0 = some 7#32 ∧
    resOf (withIir [1#32, 2#32, 3#32] [4#32, 5#32, 6#32] [7#32, 8#32]) 0x27000200 0 = some 8#32 := by
  decide +kernel

/-- II6 and II7. -/
theorem test_iir_rdn_rdhist0 :
    resOf s0 0x28100000 0 = some 3#32 ∧ seen s0 0x27000000 0 State.status = some 0x41#32 := by
  decide +kernel

/-! ### PWM, with PWM_COEF_T -/

/-- R191. -/
theorem test_pwm_reset :
    seen (s0.setPwm 0 ⟨1#32, 2#32, 3#32, 4#32⟩) 0x30000000 0 (fun t => t.pwmAt 0) = some ⟨0#32, 0#32, 0#32, 0#32⟩ := by
  decide +kernel

/-- PW1 and PW5: the first step, Y1 unscaled. -/
theorem test_pwm_step :
    seen s0 0x31000000 1000 (fun t => (t.res, t.pwmAt 0)) = some (250#32, ⟨0x447A0000#32, 0#32, 0x43FA0000#32, 0#32⟩) := by
  decide +kernel

/-- PW1, the second step. -/
theorem test_pwm_step_feedback :
    resOf (s0.setPwm 0 ⟨0x447A0000#32, 0#32, 0x43FA0000#32, 0#32⟩) 0x31000000 0 = some 250#32 := by
  decide +kernel

/-- PW6 and PW5. -/
theorem test_pwm_readback :
    resOf s0 0x32000000 0 = some 0x3F000000#32 ∧ resOf s0 0x32000300 0 = some 0xBF000000#32 ∧
    resOf (s0.setPwm 0 ⟨1#32, 2#32, 3#32, 4#32⟩) 0x33000200 0 = some 3#32 ∧
    seen s0 0x32000500 0 State.status = some 0x41#32 := by
  decide +kernel

/-! ### CR, SPS = 10 -/

/-- R200. -/
theorem test_cr_reset :
    seen (withCr [1, 2, 3, 4, 5, 6, 7, 8, 9, 10] (-4) 3 13 7) 0x40000000 0 (fun t => t.crAt 0) =
      some (CrInst.powerOn 10) := by
  decide +kernel

/-- CR8, the second sample: 32767 after -32768, with the delta negated (s + p = -1). -/
theorem test_cr_sample :
    seen (withCr [32768, 0, 0, 0, 0, 0, 0, 0, 0, 0] (-32768) 1 1 0) 0x41000000 32767
      (fun t => ((t.crAt 0).energy[1]?, (t.crAt 0).prev, (t.crAt 0).cursor, (t.crAt 0).nsamp)) =
      some (some 0xFFFF0001#32, 0x7FFF#16, 2, 2#32) := by
  decide +kernel

/-- CR6: s + p = 0 does not negate; the cursor wraps at SPS. -/
theorem test_cr_sample_wraps :
    seen (withCr [0, 0, 0, 0, 0, 0, 0, 0, 0, 7] 100 9 9 0) 0x41000000 0xFFFFFF9C
      (fun t => ((t.crAt 0).energy[9]?, (t.crAt 0).cursor)) = some (some 0xFFFFFF3F#32, 0) := by
  decide +kernel

/-- CR1 and CR3: a crossing at index 6, and none. -/
theorem test_cr_update :
    seen (withCr [0, 100, 100, 100, 100, 100, -100, -100, -100, -100] 100 0 10 0) 0x42000000 0
      (fun t => ((t.crAt 0).sp, (t.crAt 0).nsamp, (t.crAt 0).energy[1]?)) = some (5, 0#32, some 0#32) ∧
    seen (withCr [5, 0, 0, 0, 0, 0, 0, 0, 0, 0] 5 0 10 0) 0x42000000 0 (fun t => (t.crAt 0).sp) = some 9 := by
  decide +kernel

/-- CR4: with NSAMP 0 nothing happens. -/
theorem test_cr_update_idle :
    seen (withCr [5, -5, 0, 0, 0, 0, 0, 0, 0, 0] 5 3 0 9) 0x42000000 0 (fun t => t.crAt 0) =
      some ((withCr [5, -5, 0, 0, 0, 0, 0, 0, 0, 0] 5 3 0 9).crAt 0) := by
  decide +kernel

/-- R204 to R208; CR11 gives PREV; CR13 the fault. -/
theorem test_cr_readback :
    resOf (withCr [1, -2, 3, 4, 5, 6, 7, 8, 9, 10] (-100) 3 13 7) 0x43000000 0 = some 7#32 ∧
    resOf (withCr [1, -2, 3, 4, 5, 6, 7, 8, 9, 10] (-100) 3 13 7) 0x44000100 0 = some 0xFFFFFFFE#32 ∧
    resOf (withCr [1, -2, 3, 4, 5, 6, 7, 8, 9, 10] (-100) 3 13 7) 0x45000000 0 = some 13#32 ∧
    resOf (withCr [1, -2, 3, 4, 5, 6, 7, 8, 9, 10] (-100) 3 13 7) 0x46000000 0 = some 3#32 ∧
    resOf (withCr [1, -2, 3, 4, 5, 6, 7, 8, 9, 10] (-100) 3 13 7) 0x47000000 0 = some 0xFFFFFF9C#32 ∧
    seen s0 0x44000A00 0 State.status = some 0x41#32 := by
  decide +kernel

/-! ### PRBS -/

/-- R222. -/
theorem test_prbs_reset :
    seen (s0.setPrbs 1 ⟨0x158#9, 18#8, true⟩) 0x50100000 0 (fun t => t.prbsAt 1) = some ⟨1#9, 0#8, false⟩ := by
  decide +kernel

/-- PR1, the fifth and the ninth bit: 0x010 gives 1 and 0x021, 0x108 gives 1 and 0x011. -/
theorem test_prbs_gen :
    seen (s0.setPrbs 0 ⟨0x010#9, 0#8, false⟩) 0x51000000 0 (fun t => (t.res, (t.prbsAt 0).lfsr)) = some (1#32, 0x021#9) ∧
    seen (s0.setPrbs 0 ⟨0x108#9, 0#8, false⟩) 0x51000000 0 (fun t => (t.res, (t.prbsAt 0).lfsr)) = some (1#32, 0x011#9) := by
  decide +kernel

/-- Program A, the 18th match locks; before it the register 0x084 and the bit 1 of PR1. -/
theorem test_prbs_sync_locks :
    seen (s0.setPrbs 1 ⟨0x108#9, 17#8, false⟩) 0x52100000 1 (fun t => (t.res, t.prbsAt 1)) =
      some (1#32, ⟨0x011#9, 18#8, true⟩) ∧
    seen (s0.setPrbs 1 ⟨0x108#9, 16#8, false⟩) 0x52100000 1 (fun t => (t.res, t.prbsAt 1)) =
      some (0#32, ⟨0x011#9, 17#8, false⟩) := by
  decide +kernel

/-- PR4: a mismatch zeroes SCNT and keeps LOCKED. -/
theorem test_prbs_sync_mismatch :
    seen (s0.setPrbs 1 ⟨0x109#9, 18#8, true⟩) 0x52100000 0xFFFFFFFE (fun t => (t.res, t.prbsAt 1)) =
      some (1#32, ⟨0x012#9, 0#8, true⟩) := by
  decide +kernel

/-- PR5 (unlocked) and program A step 40 (locked). -/
theorem test_prbs_validate :
    seen s0 0x53000000 1 (fun t => (t.res, (t.prbsAt 0).lfsr)) = some (0#32, 1#9) ∧
    seen (s0.setPrbs 1 ⟨0x109#9, 18#8, true⟩) 0x53100000 1 (fun t => (t.res, (t.prbsAt 1).lfsr)) =
      some (1#32, 0x013#9) := by
  decide +kernel

/-- Program A step 38. -/
theorem test_prbs_rdstate : resOf (s0.setPrbs 1 ⟨0x109#9, 18#8, true⟩) 0x54100000 0 = some 0x01120109#32 := by
  decide +kernel

/-! ### GOLAY -/

/-- GO1, GO3, GO4 and GO5. -/
theorem test_golay_csum_enc :
    resOf s0 0x60000000 0x123 = some 0xAC#32 ∧ resOf s0 0x60000000 0x800 = some 0xC75#32 ∧
    resOf s0 0x61000000 0xFFFFF123 = some 0x001230AC#32 ∧ resOf s0 0x61000000 0xABC = some 0x00ABC23C#32 := by
  decide +kernel

/-- GO6 and GO7: a row of each stage. -/
theorem test_golay_detect :
    resOf s0 0x62000000 0x1230AB = some 0x7#32 ∧ resOf s0 0x62000000 0x9230AD = some 0x00800001#32 ∧
    resOf s0 0x62000000 0x9A20AC = some 0x00881000#32 ∧ resOf s0 0x62000000 0x5220AD = some 0x00401001#32 ∧
    resOf s0 0x62000000 0x1230A3 = some 0xFFFFFFFF#32 := by
  decide +kernel

/-- GO8, program B step 3, and section 2.3: ARG[31:24] is ignored. -/
theorem test_golay_decode :
    resOf s0 0x63000000 0x1230A3 = some 0xFFFFFFFF#32 ∧ resOf s0 0x63000000 0xEBCA3E = some 0xABC#32 ∧
    resOf s0 0x63000000 0xAB1230AC = some 0x123#32 := by
  decide +kernel

/-! ### PUNC -/

/-- Section 2.3 and PU16. -/
theorem test_punc_write_bytes :
    seen s0 0x70000000 0x1FF State.inbuf = some [(0, 0xFF#8)] ∧ seen s0 0x72000200 0xEE State.outbuf = some [(2, 0xEE#8)] ∧
    seen (withBufs [(0, 1#8), (3, 2#8)] []) 0x70000300 0x100 State.inbuf = some [(0, 1#8)] ∧
    seen s0 0x70004000 1 State.status = some 0x41#32 := by
  decide +kernel

/-- PU16. -/
theorem test_punc_read_bytes :
    resOf (withBufs [(0, 0xA5#8)] [(2, 0xEE#8)]) 0x71000000 0 = some 0xA5#32 ∧
    resOf (withBufs [(0, 0xA5#8)] [(2, 0xEE#8)]) 0x73000200 0 = some 0xEE#32 ∧
    resOf (withBufs [(0, 0xA5#8)] [(2, 0xEE#8)]) 0x73003F00 0 = some 0#32 := by
  decide +kernel

/-- PU17 and section 2.3 (SETPLEN reads ARG[15:0]). -/
theorem test_punc_patterns :
    seen (withBufs [] []) 0x74100A00 0xFFFFFFFE (fun t => ((t.slotAt 1).bits[10]?, (t.slotAt 1).bits[9]?)) =
      some (some false, some true) ∧
    resOf (withBufs [] []) 0x75100A00 0 = some 1#32 ∧ resOf (withBufs [] []) 0x75100B00 0 = some 0#32 ∧
    seen s0 0x76000000 0x00050040 (fun t => (t.slotAt 0).plen) = some 64 ∧ resOf (withBufs [] []) 0x77100000 0 = some 12#32 := by
  decide +kernel

/-- PU1 and PU2. -/
theorem test_punc_punct :
    seen (withBufs [(0, 0xA5#8), (1, 0x5A#8), (2, 0xC3#8)] []) 0x78100000 0x00030003 (fun t => (t.res, t.outbuf)) =
      some (22#32, [(0, 0xA5#8), (1, 0x55#8), (2, 0x84#8)]) ∧
    seen (withBufs [(0, 0xA5#8), (1, 0x5A#8), (2, 0xC3#8)] []) 0x78100000 0x00010003 (fun t => (t.res, t.outbuf)) =
      some (8#32, [(0, 0xA5#8)]) := by
  decide +kernel

/-- PU3 and PU4. -/
theorem test_punc_depunct :
    seen (withBufs [(0, 0xA5#8), (1, 0x55#8), (2, 0x84#8)] []) 0x79100000 0x00030016 (fun t => (t.res, t.outbuf)) =
      some (0x00160018#32, [(0, 0xA5#8), (1, 0x4A#8), (2, 0xC2#8)]) ∧
    seen (withBufs [(0, 0xA5#8)] [(0, 0xFF#8)]) 0x79100000 0x00010005 (fun t => (t.res, t.outbuf)) =
      some (0x00050005#32, [(0, 0xA7#8)]) := by
  decide +kernel

/-! ### DCR -/

/-- DC5 and section 2.2. -/
theorem test_dcr_reset_setalpha :
    seen (s0.setDcr 0 ⟨0x3F7D70A4#32, 1#32, 2#32⟩) 0x80000000 0 (fun t => t.dcrAt 0) = some ⟨0x3F7D70A4#32, 0#32, 0#32⟩ ∧
    seen (s0.setDcr 1 ⟨0#32, 1#32, 2#32⟩) 0x81100000 0x3F7D70A4 (fun t => t.dcrAt 1) = some ⟨0x3F7D70A4#32, 1#32, 2#32⟩ := by
  decide +kernel

/-- Program F, the first two steps of its DCR: 1000 and 990. -/
theorem test_dcr_step :
    seen (s0.setDcr 0 ⟨0x3F7D70A4#32, 0x447A0000#32, 0x447A0000#32⟩) 0x82000000 1000 (fun t => (t.res, (t.dcrAt 0).u1)) =
      some (990#32, 0x447A0000#32) ∧
    resOf (s0.setDcr 0 ⟨0#32, 0xC7000000#32, 0#32⟩) 0x82000000 32767 = some 32767#32 := by
  decide +kernel

/-- DC5 and R294; DC6 the fault. -/
theorem test_dcr_readback :
    resOf (s0.setDcr 0 ⟨5#32, 6#32, 7#32⟩) 0x83000000 0 = some 5#32 ∧
    resOf (s0.setDcr 0 ⟨5#32, 6#32, 7#32⟩) 0x84000000 0 = some 6#32 ∧
    resOf (s0.setDcr 0 ⟨5#32, 6#32, 7#32⟩) 0x84000100 0 = some 7#32 ∧ seen s0 0x84000200 0 State.status = some 0x41#32 := by
  decide +kernel

/-! ### NG -/

/-- R300 and R301. -/
theorem test_ng_reset_setcfg :
    seen (withNg 1#32 2#32 3#32) 0x90000000 0 (fun t => t.ngAt 0) = some ((withNg 1#32 0#32 0#32).ngAt 0) ∧
    seen (withNg 1#32 2#32 3#32) 0x91000300 9 (fun t => t.ngAt 0) = some ((withNg 9#32 2#32 3#32).ngAt 0) := by
  decide +kernel

/-- NG1, the first and the fourth step: attack, then release below THRESH. -/
theorem test_ng_step :
    resOf (withNg 0#32 0#32 0#32) 0x92000000 1000 = some 500#32 ∧
    seen (withNg 0#32 0#32 0x3F600000#32) 0x92000000 50 (fun t => (t.res, (t.ngAt 0).sg)) = some (21#32, 0x3EE00000#32) := by
  decide +kernel

/-- NG2, the second step: while HOLD is below HOLDTIME only HOLD moves. -/
theorem test_ng_step_holds :
    seen (withNg 0x3983126F#32 0x3903126F#32 0#32) 0x92000000 1000 (fun t => (t.res, (t.ngAt 0).hold, (t.ngAt 0).sg)) =
      some (0#32, 0x3983126F#32, 0#32) := by
  decide +kernel

/-- NG8 and R304; NG7 the fault. -/
theorem test_ng_readback :
    resOf (withNg 1#32 2#32 3#32) 0x93000000 0 = some 0x42C80000#32 ∧
    resOf (withNg 1#32 2#32 3#32) 0x93000400 0 = some 0x3903126F#32 ∧
    resOf (withNg 1#32 2#32 3#32) 0x94000000 0 = some 2#32 ∧ resOf (withNg 1#32 2#32 3#32) 0x94000100 0 = some 3#32 ∧
    seen s0 0x91000500 0 State.status = some 0x41#32 := by
  decide +kernel

/-! ### CONV -/

/-- CV1. -/
theorem test_conv_forward :
    resOf s0 0xA0000000 0xFFFFFFFB = some 5#32 ∧ resOf s0 0xA0000000 0xFFFF8000 = some 0xFFFF8000#32 ∧
    resOf s0 0xA1000000 1000 = some 2110#32 ∧ resOf s0 0xA1000000 0xFFFF8000 = some 0#32 ∧
    resOf s0 0xA2000000 1000 = some 131#32 ∧ resOf s0 0xA2000000 0xFFFFFFFF = some 127#32 := by
  decide +kernel

/-- CV2. -/
theorem test_conv_reverse :
    resOf s0 0xA3000000 0x001 = some 0xFFFF8010#32 ∧ resOf s0 0xA3000000 0x1FFF = some 0x7FF0#32 ∧
    resOf s0 0xA4000000 0x7F = some 0xFFFFFF00#32 ∧ resOf s0 0xA4000000 0x1FF = some 0x7F00#32 := by
  decide +kernel

/-! ### Binary32 (00_scope.md R13, R15) -/

/-- Ties go to even, subnormals are kept, overflow gives infinity. -/
theorem test_binary32_rounding :
    fadd 0x4B800000#32 0x3F800000#32 = 0x4B800000#32 ∧ fadd 0x4B800001#32 0x3F800000#32 = 0x4B800002#32 ∧
    fmul 0x00800000#32 0x3F000000#32 = 0x00400000#32 ∧ fadd 0x7F7FFFFF#32 0x7F7FFFFF#32 = 0x7F800000#32 ∧
    fsub 0x3F800000#32 0x3F800000#32 = 0#32 ∧ fmul 0x7F800000#32 0x80000000#32 = 0x7FC00000#32 := by
  decide +kernel

/-- F32(1000) and F32(-32768), and cvt_s16 truncates toward zero and saturates. -/
theorem test_sample_conversions :
    f32OfInt 1000 = 0x447A0000#32 ∧ f32OfInt (-32768) = 0xC7000000#32 ∧ cvtS16 0xBF400000#32 = 0 ∧
    cvtS16 0xC0200000#32 = -2 ∧ cvtS16 0x476A6000#32 = 32767 ∧ cvtS16 0x7FC00000#32 = 0 := by
  decide +kernel

/-! ### The hypotheses of the statements can be met -/

open Sys2Proof.Spec

/-- A machine whose port holds a command and then the reset input. -/
def busy (c : Command) : State := { s0 with issue := [.command c, .resetInput] }

/-- A machine with ERR set by an earlier fault. -/
def faultedState : State := { s0 with status := 0x41#32, faultCmd := 0x91000500#32, faultArg := 5#32 }

/-- INBUF holds the three bytes of PU1, pattern slot 1 holds P2. -/
def punctState : State := withBufs [(0, 0xA5#8), (1, 0x5A#8), (2, 0xC3#8)] []

/-- INBUF holds the output of PU1 (PU3). -/
def depunctState : State := withBufs [(0, 0xA5#8), (1, 0x55#8), (2, 0x84#8)] []

/-- R248's table is legal. Its generator words are written out: data bit k, then R248's entry k. -/
theorem otherGolayE_legal : GolayLegal otherGolayE :=
  golayLegal_of_units otherGolayE
    [0x800E3A#24, 0x400B1D#24, 0x2007B4#24, 0x1003DA#24, 0x0801ED#24, 0x040ECC#24, 0x020B66#24, 0x0109B3#24,
     0x0086E3#24, 0x004D4B#24, 0x00249F#24, 0x001C75#24]
    (by decide +kernel) (by decide +kernel) (by decide +kernel)

theorem cfgAlt_legal : cfgAlt.Legal := ⟨by decide +kernel, otherGolayE_legal⟩

/-- Power-on with P2 in slot 1 is well-formed. -/
theorem noBufs_inv : Inv (withBufs [] []) where
  cfg := cfgAlt_legal
  fir := by decide +kernel
  iir := by decide +kernel
  pwm := by decide +kernel
  cr := by decide +kernel
  prbs := by decide +kernel
  pat := by decide +kernel
  dcr := by decide +kernel
  ng := by decide +kernel
  inbuf := by decide +kernel
  outbuf := by decide +kernel
  record := by decide +kernel

theorem withBufs_inv (inbuf outbuf : Memory) (h : BufferLegal 64 inbuf) (h' : BufferLegal 64 outbuf) :
    Inv (withBufs inbuf outbuf) :=
  { noBufs_inv with inbuf := h, outbuf := h' }

theorem witness_DecodeOfEncodeIsTheCommand : (Instr.firSettap 15 4095 0#32).wf = true := by decide

theorem witness_EncodeOfDecodeIsTheWords :
    decode ⟨0x11FFFF00#32, 9#32⟩ = .ok (.firSettap 15 4095 9#32) := by decide +kernel

theorem witness_StepRunsTheDecodedCommand :
    (busy ⟨0x04000000#32, 9#32⟩).issue = .command ⟨0x04000000#32, 9#32⟩ :: [.resetInput] ∧
    decode ⟨0x04000000#32, 9#32⟩ = .ok (.ctrlRdid 9#32) := by decide +kernel

theorem witness_StepFaultsOnARejectedCommand :
    (busy ⟨0xB0000000#32, 9#32⟩).issue = .command ⟨0xB0000000#32, 9#32⟩ :: [.resetInput] ∧
    decode ⟨0xB0000000#32, 9#32⟩ = .error .illegalOpcode ∧
    (busy ⟨1#32, 9#32⟩).issue = .command ⟨1#32, 9#32⟩ :: [.resetInput] ∧
    decode ⟨1#32, 9#32⟩ = .error .reservedField := by decide +kernel

theorem witness_StepWaitsOrResets :
    s0.issue = [] ∧ ({ s0 with issue := [.resetInput] } : State).issue = .resetInput :: [] := by decide +kernel

theorem witness_StepKeepsWellFormedness :
    ∃ s t : State, Inv s ∧ step s = .next t ∧ s.issue ≠ [] ∧ t.res = 0x4D313707#32 :=
  ⟨{ withBufs [(63, 1#8)] [] with issue := [.command ⟨0x04000000#32, 9#32⟩] }, _,
    { withBufs_inv [(63, 1#8)] [] (by decide +kernel) (by decide +kernel) with }, rfl, by decide, rfl⟩

/-- The smallest SPS with the largest buffers is legal too, and a table of zeros is not. -/
theorem witness_PowerOnIsWellFormed :
    cfgAlt.Legal ∧ ({ cfgAlt with sps := 1, pbufBytes := 4096 } : Config).Legal ∧
    ¬ ({ cfgAlt with golayE := List.replicate 12 0#12 } : Config).Legal :=
  ⟨cfgAlt_legal, ⟨by decide +kernel, otherGolayE_legal⟩, fun h => absurd (h.golay.1 1#12) (by decide +kernel)⟩

theorem witness_PowerOnGivesEveryRegisterItsValue :
    ((State.powerOn cfgT).fir[1]? = some (FirInst.powerOn 81) ∧ (FirInst.powerOn 81).taps[80]? = some 0#32 ∧ (FirInst.powerOn 81).hist[80]? = some 0#32) ∧
    ((State.powerOn cfgT).iir[1]? = some (IirInst.powerOn 3) ∧ (IirInst.powerOn 3).num[2]? = some 0#32 ∧ (IirInst.powerOn 3).den[2]? = some 0#32 ∧
      (IirInst.powerOn 3).w[1]? = some 0#32) ∧
    (State.powerOn cfgT).pwm[0]? = some PwmInst.powerOn ∧
    ((State.powerOn cfgT).cr[0]? = some (CrInst.powerOn 10) ∧ (CrInst.powerOn 10).energy[9]? = some 0#32) ∧
    (State.powerOn cfgT).prbs[1]? = some PrbsInst.powerOn ∧
    ((State.powerOn cfgT).pat[1]? = some (PatSlot.powerOn 64) ∧ (PatSlot.powerOn 64).bits[63]? = some false) ∧
    (State.powerOn cfgT).dcr[1]? = some DcrInst.powerOn ∧ (State.powerOn cfgT).ng[0]? = some NgInst.powerOn :=
  by decide +kernel

theorem witness_FaultingCommandOnlyRecordsTheFault :
    check s0 (.firStep 2 0#32) = some 3 ∧ check s0 (.firSettap 1 81 0#32) = some 4 ∧
    check s0 (.iirRdhist 0 0 0#32) = some 4 ∧ check s0 (.puncSetplen 0 65#32) = some 5 ∧
    check s0 (.puncPunct 0 0x00010001#32) = some 6 := by decide +kernel

theorem witness_PassingCommandCompletesWithoutAFault :
    check s0 (.firSettap 1 80 0#32) = none ∧ check s0 (.puncSetplen 1 64#32) = none ∧
    check punctState (.puncPunct 1 0x00400040#32) = none ∧ check faultedState (.ctrlClrerr 0#32) = none := by
  decide +kernel

theorem witness_OnlyClrerrOrResetClearsTheRecord :
    ({ faultedState with issue := [.command ⟨0xA5000000#32, 0#32⟩] } : State).status.getLsbD 0 = true ∧
    (0xA5000000#32 : Word) ≠ 0x03000000#32 := by decide +kernel

theorem witness_ReadCommandsChangeOnlyRes :
    isRead (.crGetsp 0 0#32) = true ∧ check s0 (.crGetsp 0 0#32) = none ∧
    isRead (.firRdhist 1 80 0#32) = true ∧ check s0 (.firRdhist 1 80 0#32) = none := by decide +kernel

theorem witness_CtrlRdparamReadsTheParameters :
    [s0.cfg.sps, s0.cfg.firNtaps.length, s0.cfg.iirN.length, s0.cfg.npwm, s0.cfg.ncr, s0.cfg.nprbs, s0.cfg.ndcr,
      s0.cfg.nng, s0.cfg.pbufBytes, s0.cfg.pmax, s0.cfg.npat, 18][11]? = some 18 ∧ 11 < 12 := by decide +kernel

theorem witness_CtrlClrerrClearsAndRearmsTheRecord :
    ∃ t, exec (.ctrlClrerr 0#32) faultedState = .next t ∧ check t (.firStep 2 0#32) = some 3 :=
  ⟨_, rfl, by decide +kernel⟩

theorem witness_UnitResetsClearOneStream :
    1 < s0.cfg.nfir ∧ s0.fir[1]? = some (FirInst.powerOn 81) ∧ 1 < s0.cfg.niir ∧ s0.iir[1]? = some (IirInst.powerOn 3) ∧ 0 < s0.cfg.npwm ∧
    0 < s0.cfg.ncr ∧ s0.cr[0]? = some (CrInst.powerOn 10) ∧ 1 < s0.cfg.nprbs ∧ 1 < s0.cfg.ndcr ∧
    s0.dcr[1]? = some DcrInst.powerOn ∧ 0 < s0.cfg.nng ∧ s0.ng[0]? = some NgInst.powerOn ∧ s0.cfg.nfir ≤ 2 ∧
    s0.cfg.niir ≤ 2 ∧ s0.cfg.npwm ≤ 1 ∧ s0.cfg.ncr ≤ 1 ∧ s0.cfg.nprbs ≤ 2 ∧ s0.cfg.ndcr ≤ 2 ∧ s0.cfg.nng ≤ 1 :=
  by decide +kernel

theorem witness_CoefficientWritesStoreVerbatim :
    1 < s0.cfg.nfir ∧ 80 < s0.cfg.firN 1 ∧ s0.fir[1]? = some (FirInst.powerOn 81) ∧ 1 < s0.cfg.niir ∧ 2 < s0.cfg.iirLen 1 ∧
    s0.iir[1]? = some (IirInst.powerOn 3) ∧ s0.cfg.nfir ≤ 2 ∧ s0.cfg.niir ≤ 2 ∧ s0.cfg.firN 1 ≤ 81 ∧ s0.cfg.iirLen 1 ≤ 3 :=
  by decide +kernel

theorem witness_ConditioningConfigurationStoresVerbatim :
    1 < s0.cfg.ndcr ∧ s0.dcr[1]? = some DcrInst.powerOn ∧ 0 < s0.cfg.nng ∧ s0.ng[0]? = some NgInst.powerOn ∧
    s0.cfg.ndcr ≤ 2 ∧ s0.cfg.nng ≤ 1 ∧ 4 < 5 :=
  by decide +kernel

theorem witness_FirReadback :
    1 < s0.cfg.nfir ∧ 80 < s0.cfg.firN 1 ∧ s0.fir[1]? = some (FirInst.powerOn 81) ∧ (FirInst.powerOn 81).taps[80]? = some 0#32 ∧
    (FirInst.powerOn 81).hist[80]? = some 0#32 ∧ s0.cfg.firNtaps[1]? = some 81 ∧ s0.cfg.nfir ≤ 2 ∧ s0.cfg.firN 1 ≤ 81 :=
  by decide +kernel

theorem witness_IirReadback :
    1 < s0.cfg.niir ∧ 2 < s0.cfg.iirLen 1 ∧ s0.iir[1]? = some (IirInst.powerOn 3) ∧ (IirInst.powerOn 3).num[2]? = some 0#32 ∧
    (IirInst.powerOn 3).den[2]? = some 0#32 ∧ 1 + 1 < s0.cfg.iirLen 1 ∧ (IirInst.powerOn 3).w[1]? = some 0#32 ∧
    s0.cfg.iirN[1]? = some 3 ∧ s0.cfg.niir ≤ 2 ∧ s0.cfg.iirLen 1 ≤ 3 :=
  by decide +kernel

theorem witness_PwmReadback :
    0 < s0.cfg.npwm ∧ s0.pwm[0]? = some PwmInst.powerOn ∧
    [PwmInst.powerOn.u1, PwmInst.powerOn.u2, PwmInst.powerOn.y1, PwmInst.powerOn.y2][3]? = some 0#32 ∧
    [s0.cfg.pwmCoef.b0, s0.cfg.pwmCoef.b1, s0.cfg.pwmCoef.b2, s0.cfg.pwmCoef.a1, s0.cfg.pwmCoef.a2][4]? =
      some 0x3E800000#32 ∧ s0.cfg.npwm ≤ 1 ∧ 4 < 5 ∧ 3 < 4 :=
  by decide +kernel

theorem witness_ConditioningReadback :
    1 < s0.cfg.ndcr ∧ s0.dcr[1]? = some DcrInst.powerOn ∧ [DcrInst.powerOn.u1, DcrInst.powerOn.y1][1]? = some 0#32 ∧
    0 < s0.cfg.nng ∧ s0.ng[0]? = some NgInst.powerOn ∧
    [NgInst.powerOn.thresh, NgInst.powerOn.attack, NgInst.powerOn.release, NgInst.powerOn.holdtime,
      NgInst.powerOn.sampletime][4]? = some 0#32 ∧ [NgInst.powerOn.hold, NgInst.powerOn.sg][1]? = some 0#32 ∧
    s0.cfg.ndcr ≤ 2 ∧ s0.cfg.nng ≤ 1 ∧ 1 < 2 ∧ 4 < 5 :=
  by decide +kernel

theorem witness_ClockRecoveryReadback :
    0 < s0.cfg.ncr ∧ s0.cr[0]? = some (CrInst.powerOn 10) ∧ 9 < s0.cfg.sps ∧
    (CrInst.powerOn 10).energy[9]? = some 0#32 ∧ s0.cfg.ncr ≤ 1 ∧ s0.cfg.sps ≤ 10 :=
  by decide +kernel

theorem witness_FirStepsConvolveTheHistory :
    s0.fir[1]? = some (FirInst.powerOn 81) ∧ 1 < s0.cfg.nfir ∧ 0 < s0.cfg.firN 1 ∧ (FirInst.powerOn 81).taps.length = s0.cfg.firN 1 ∧
    (FirInst.powerOn 81).hist.length = s0.cfg.firN 1 ∧ s0.cfg.nfir ≤ 2 :=
  by decide +kernel

theorem witness_IirStepsAreDirectFormTwo :
    s0.iir[1]? = some (IirInst.powerOn 3) ∧ 1 < s0.cfg.niir ∧ 0 < s0.cfg.iirLen 1 ∧ (IirInst.powerOn 3).num.length = s0.cfg.iirLen 1 ∧
    (IirInst.powerOn 3).den.length = s0.cfg.iirLen 1 ∧ (IirInst.powerOn 3).w.length + 1 = s0.cfg.iirLen 1 ∧ s0.cfg.niir ≤ 2 :=
  by decide +kernel

theorem witness_PwmStepFiltersAndHalves :
    0 < s0.cfg.npwm ∧ s0.pwm[0]? = some PwmInst.powerOn ∧ s0.cfg.npwm ≤ 1 :=
  by decide +kernel

theorem witness_DcRemovalStep :
    1 < s0.cfg.ndcr ∧ s0.dcr[1]? = some DcrInst.powerOn ∧ s0.cfg.ndcr ≤ 2 :=
  by decide +kernel

/-- Each branch of NG.STEP is taken from some state: HOLD below HOLDTIME, then release, then attack. -/
theorem witness_NoiseGateStep :
    0 < s0.cfg.nng ∧ s0.cfg.nng ≤ 1 ∧
    ((withNg 0x3F800000#32 0#32 0#32).ng[0]? = some ((withNg 0x3F800000#32 0#32 0#32).ngAt 0) ∧
      flt ((withNg 0x3F800000#32 0#32 0#32).ngAt 0).hold ((withNg 0x3F800000#32 0#32 0#32).ngAt 0).holdtime = true) ∧
    ((withNg 0#32 0#32 0x3F600000#32).ng[0]? = some ((withNg 0#32 0#32 0x3F600000#32).ngAt 0) ∧
      flt 0#32 0#32 = false ∧ fge (f32OfInt |sampleOf 50#32|) ((withNg 0#32 0#32 0x3F600000#32).ngAt 0).thresh = false ∧
      fle 0x00000000#32 ((withNg 0#32 0#32 0x3F600000#32).ngAt 0).sg = true ∧
      fge (f32OfInt |sampleOf 0xFFFF8000#32|) ((withNg 0#32 0#32 0x3F600000#32).ngAt 0).thresh = true ∧
      fle 0x3F800000#32 ((withNg 0#32 0#32 0x3F600000#32).ngAt 0).sg = false) :=
  by decide +kernel

theorem witness_ClockRecoverySample :
    0 < s0.cfg.ncr ∧ s0.cfg.ncr ≤ 1 ∧
    ((withCr [0, 0, 0, 0, 0, 0, 0, 0, 0, 7] 100 9 9 0).cr[0]?).bind (fun c => c.energy[c.cursor]?) = some 7#32 :=
  by decide +kernel

/-- NSAMP 0, a crossing at index 1 and at index 9, and no crossing. -/
theorem witness_ClockRecoveryUpdate :
    (s0.cr[0]? = some (CrInst.powerOn 10) ∧ (CrInst.powerOn 10).energy.length = s0.cfg.sps ∧
      (CrInst.powerOn 10).nsamp = 0#32 ∧ s0.cfg.ncr ≤ 1) ∧
    ((withCr [1, -1, 0, 0, 0, 0, 0, 0, 0, 0] 0 0 10 0).crAt 0).nsamp ≠ 0#32 ∧
    CrossesAt ((withCr [1, -1, 0, 0, 0, 0, 0, 0, 0, 0] 0 0 10 0).crAt 0).energy 1 ∧
    CrossesAt ((withCr [0, 0, 0, 0, 0, 0, 0, 0, 2, -3] 0 0 10 0).crAt 0).energy 9 ∧
    ∀ i, ¬ CrossesAt ((withCr [0, 0, 0, 0, 0, 0, 0, 0, 0, 0] 0 0 10 0).crAt 0).energy i :=
  by
  refine ⟨by decide +kernel, by decide +kernel, ⟨⟨-1, by decide +kernel⟩, 0, by decide, ⟨1, by decide +kernel⟩⟩,
    ⟨⟨-3, by decide +kernel⟩, 8, by decide, ⟨2, by decide +kernel⟩⟩, ?_⟩
  rintro i ⟨⟨v, hv, hneg⟩, -⟩
  have hz : v = 0#32 := List.eq_of_mem_replicate (n := 10) (List.mem_of_getElem? hv)
  subst hz
  exact absurd hneg (by decide)

theorem witness_PrbsGenShiftsInTheFeedback :
    1 < s0.cfg.nprbs ∧ s0.prbs[1]? = some PrbsInst.powerOn ∧ s0.cfg.nprbs ≤ 2 :=
  by decide +kernel

/-- A mismatch on a locked register, the 18th match, and the wrap of SCNT from 255. -/
theorem witness_PrbsSyncCountsAndLocks :
    1 < s0.cfg.nprbs ∧ s0.cfg.nprbs ≤ 2 ∧
    ((s0.setPrbs 1 ⟨0x109#9, 18#8, true⟩).prbs[1]? = some ⟨0x109#9, 18#8, true⟩ ∧ bitOf 0#32 ≠ fb 0x109#9) ∧
    ((s0.setPrbs 1 ⟨0x108#9, 17#8, false⟩).prbs[1]? = some ⟨0x108#9, 17#8, false⟩ ∧ bitOf 1#32 = fb 0x108#9) ∧
    (s0.setPrbs 1 ⟨0x108#9, 255#8, true⟩).prbs[1]? = some ⟨0x108#9, 255#8, true⟩ :=
  by decide +kernel

theorem witness_PrbsValidatePredictsAndRdstatePacks :
    1 < s0.cfg.nprbs ∧ s0.prbs[1]? = some PrbsInst.powerOn ∧ PrbsInst.powerOn.locked = false ∧
    (s0.setPrbs 1 ⟨0x109#9, 18#8, true⟩).prbs[1]? = some ⟨0x109#9, 18#8, true⟩ ∧ s0.cfg.nprbs ≤ 2 :=
  by decide +kernel

theorem witness_NineSyncsFillTheRegister :
    1 < s0.cfg.nprbs ∧ s0.prbs[1]? = some PrbsInst.powerOn ∧ (List.replicate 9 (1#32 : Word)).length = 9 :=
  by decide +kernel

theorem witness_PrbsPeriodIs511 :
    1 < s0.cfg.nprbs ∧ s0.prbs[1]? = some PrbsInst.powerOn ∧ PrbsInst.powerOn.lfsr = 1#9 ∧ 0 < 1 ∧ 1 ≤ 511 ∧ 511 ≤ 511 :=
  by decide +kernel

/-- A PRBS.SYNC with the wrong bit on a locked register. -/
theorem witness_LockIsSticky :
    ({ s0.setPrbs 1 ⟨0x109#9, 18#8, true⟩ with issue := [.command ⟨0x52100000#32, 0#32⟩] } : State).prbs[1]? =
      some ⟨0x109#9, 18#8, true⟩ ∧ decode ⟨0x52100000#32, 0#32⟩ ≠ .ok (.ctrlRstall 0#32) ∧
    decode ⟨0x52100000#32, 0#32⟩ ≠ .ok (.prbsReset 1 0#32) :=
  by decide +kernel

/-- The DEFAULT table, its transpose and the products of the words of GO7. -/
theorem witness_GolayDetectFollowsTheStages :
    s0.cfg.golayE.length = 12 ∧ IsTranspose s0.cfg.golayE (decodeTable s0.cfg.golayE) ∧
    IsProduct s0.cfg.golayE ((0x9A20AC#32 : Word).extractLsb' 12 12) (csum s0.cfg.golayE 0x9A2#12) ∧
    IsProduct (decodeTable s0.cfg.golayE) ((0x9A20AC#32 : Word).setWidth 12 ^^^ csum s0.cfg.golayE 0x9A2#12)
      (mulD s0.cfg.golayE (0x0AC#12 ^^^ csum s0.cfg.golayE 0x9A2#12)) := by
  refine ⟨by decide, ⟨by decide +kernel, fun i j hi hj => ?_⟩, ?_, ?_⟩
  · have h : ∀ i < 12, ∀ j < 12, ((decodeTable s0.cfg.golayE).getD i 0#12).getLsbD j =
        (s0.cfg.golayE.getD j 0#12).getLsbD i := by decide +kernel
    exact h i hi j hj
  · unfold IsProduct; decide +kernel
  · unfold IsProduct; decide +kernel

theorem witness_GolayCorrectsUpToThreeErrors :
    s0.cfg.golayE = Config.defaultGolayE ∧ weight (0x881000#24) ≤ 3 ∧
    (0xFF9A20AC#32 : Word).setWidth 24 = codeword Config.defaultGolayE 0x123#12 ^^^ 0x881000#24 := by decide +kernel

theorem witness_GolayMaskLeadsToACodeword :
    otherGolayE.length = 12 ∧ (∀ v : BitVec 12, mulD otherGolayE (csum otherGolayE v) = v) ∧
    detect otherGolayE 0x001001#24 = some 0x001001#24 :=
  ⟨rfl, otherGolayE_legal.1, by decide +kernel⟩

theorem witness_BufferBytesAreReadAndWritten :
    (punctState.inbuf.wf ∧ punctState.outbuf.wf ∧ 63 < punctState.cfg.pbufBytes ∧ punctState.cfg.pbufBytes ≤ 64) ∧ ∃ t, exec (.puncWrin 63 0xA5#32) punctState = .next t :=
  ⟨by decide +kernel, _, rfl⟩

/-- R270's example: 0xA5 carries the stream bits 1,0,1,0,0,1,0,1, and R93: stream bit 8 is bit 7 of byte 1. -/
theorem test_stream_bit_order :
    (List.range 8).map (getBit [(0, 0xA5#8)]) = [true, false, true, false, false, true, false, true] ∧
    setBit [] 8 true = [(1, 0x80#8)] ∧ setBit [] 2 true = [(0, 0x20#8)] := by decide +kernel

theorem witness_PatternsAreReadAndWritten :
    1 < s0.cfg.npat ∧ 63 < s0.cfg.pmax ∧ s0.pat[1]? = some (PatSlot.powerOn 64) ∧
    (PatSlot.powerOn 64).bits[63]? = some false ∧ 1 ≤ (64#32 : Word).toNat % 65536 ∧
    (64#32 : Word).toNat % 65536 ≤ s0.cfg.pmax ∧ s0.cfg.npat ≤ 2 ∧ s0.cfg.pmax ≤ 64 ∧
    (0x00010000#32 : Word).toNat % 65536 = 0 ∧ s0.cfg.pmax < (65#32 : Word).toNat % 65536 :=
  by decide +kernel

/-- The whole of both buffers, a length one past them, a slot with PLEN 0, and slot 2. -/
theorem witness_PunctureKeepsThePatternsBits :
    (1 < punctState.cfg.npat ∧ punctState.pat[1]? = some p2 ∧ punctState.outbuf.wf ∧ p2.plen ≠ 0 ∧
      (0x00400040#32 : Word).toNat % 65536 ≤ punctState.cfg.pbufBytes ∧
      (0x00400040#32 : Word).toNat / 65536 ≤ punctState.cfg.pbufBytes) ∧
    (0 < punctState.cfg.npat ∧ punctState.pat[0]? = some (PatSlot.powerOn 64) ∧ (PatSlot.powerOn 64).plen = 0) ∧
    punctState.cfg.pbufBytes < (0x00000041#32 : Word).toNat % 65536 ∧
    punctState.cfg.pbufBytes < (0x00410000#32 : Word).toNat / 65536 ∧ punctState.cfg.npat ≤ 2 :=
  by decide +kernel

theorem witness_DepunctureInsertsErasures :
    (1 < depunctState.cfg.npat ∧ depunctState.pat[1]? = some p2 ∧ depunctState.outbuf.wf ∧ p2.plen ≠ 0 ∧
      (0x00400200#32 : Word).toNat % 65536 ≤ 8 * depunctState.cfg.pbufBytes ∧
      (0x00400200#32 : Word).toNat / 65536 ≤ depunctState.cfg.pbufBytes) ∧
    (0 < depunctState.cfg.npat ∧ depunctState.pat[0]? = some (PatSlot.powerOn 64) ∧ (PatSlot.powerOn 64).plen = 0) ∧
    8 * depunctState.cfg.pbufBytes < (0x00000201#32 : Word).toNat % 65536 ∧
    depunctState.cfg.pbufBytes < (0x00410000#32 : Word).toNat / 65536 ∧ depunctState.cfg.npat ≤ 2 :=
  by decide +kernel

/-- Program C: PUNCT of three bytes, the copy, DEPUNCT of 22 bits. -/
theorem witness_DepunctureUndoesPuncture :
    ∃ (t t' : State) (p : PatSlot), Inv punctState ∧ Inv depunctState ∧ depunctState.cfg = punctState.cfg ∧
      punctState.pat[1]? = some p ∧ depunctState.pat[1]? = some p ∧ p.plen ≠ 0 ∧ (∃ i, i < p.plen ∧ p.bits[i]? = some true) ∧
      keptBefore p (8 * ((0x00030003#32 : Word).toNat % 65536)) ≤ 8 * ((0x00030003#32 : Word).toNat / 65536) ∧
      exec (.puncPunct 1 0x00030003#32) punctState = .next t ∧ 22 = t.res.toNat ∧
      (∀ a, a < (22 + 7) / 8 → readByte depunctState.inbuf a = readByte t.outbuf a) ∧
      (0x00030016#32 : Word).toNat % 65536 = 22 ∧
      (0x00030016#32 : Word).toNat / 65536 = (0x00030003#32 : Word).toNat % 65536 ∧
      exec (.puncDepunct 1 0x00030016#32) depunctState = .next t' :=
  ⟨_, _, p2, withBufs_inv _ _ (by decide +kernel) (by decide +kernel),
    withBufs_inv _ _ (by decide +kernel) (by decide +kernel), rfl, rfl, rfl, by decide, ⟨0, by decide, rfl⟩,
    by decide +kernel, rfl, by decide +kernel, by decide +kernel, by decide, by decide, rfl⟩

theorem witness_NegationWrapsAndForwardConversionsBias :
    sampleOf 0x00008001#32 ≠ -32768 ∧ sampleOf 0x00007FFF#32 ≠ -32768 ∧ sampleOf 0x00008000#32 = -32768 := by
  decide +kernel

theorem witness_ReverseConversionsInvertTheForward :
    (∃ t u, exec (.convS16tou12 0x0000FFFF#32) s0 = .next t ∧ exec (.convU12tos16 t.res) t = .next u) ∧
    (∃ t u, exec (.convS16tou8 0x0000FFFF#32) s0 = .next t ∧ exec (.convU8tos16 t.res) t = .next u) :=
  ⟨⟨_, _, rfl, rfl⟩, ⟨_, _, rfl, rfl⟩⟩

theorem witness_CommandsWriteOnlyTheEntryTheyName :
    (((Instr.prbsGen 1 0#32).fields.unit, (Instr.prbsGen 1 0#32).fields.op) ≠ (0, 1) ∧
      ((Instr.prbsGen 1 0#32).fields.unit, (Instr.prbsGen 1 0#32).fields.inst) ≠ (5, 0) ∧
      (Instr.prbsGen 1 0#32).fields.unit ≠ 7) ∧
    ∃ t, exec (.prbsGen 1 0#32) s0 = .next t :=
  ⟨by decide, _, rfl⟩

/-- Two states that differ in the fault record, in another bank and in another copy, and agree on the entry named: one
command of each banked unit. -/
theorem witness_CommandsReadOnlyTheEntryTheyName :
    ∀ s s' : State, s = s0 →
      s' = { (s0.setPrbs 0 ⟨5#9, 9#8, false⟩) with status := 0x41#32, inbuf := [(0, 1#8)] } →
      s'.cfg = s.cfg ∧ s'.fir[1]? = s.fir[1]? ∧ s'.iir[1]? = s.iir[1]? ∧ s'.pwm[0]? = s.pwm[0]? ∧ s'.cr[0]? = s.cr[0]? ∧
      s'.prbs[1]? = s.prbs[1]? ∧ s'.dcr[1]? = s.dcr[1]? ∧ s'.ng[0]? = s.ng[0]? ∧ s'.prbs[0]? ≠ s.prbs[0]? ∧
      ∀ i ∈ [Instr.firReset 1 0#32, .iirReset 1 0#32, .pwmReset 0 0#32, .crReset 0 0#32, .prbsGen 1 0#32,
          .dcrReset 1 0#32, .ngReset 0 0#32],
        (∃ t, exec i s = .next t) ∧ ∃ t', exec i s' = .next t' := by
  rintro s s' rfl rfl
  refine ⟨rfl, rfl, rfl, rfl, rfl, by decide +kernel, rfl, rfl, by decide +kernel, fun i hi => ?_⟩
  simp only [List.mem_cons, List.not_mem_nil, or_false] at hi
  rcases hi with rfl | rfl | rfl | rfl | rfl | rfl | rfl <;> exact ⟨⟨_, rfl⟩, ⟨_, rfl⟩⟩

/-- The largest finite number and an addend that rounds away, and a tie. -/
theorem witness_AdditionRoundsToNearestEven :
    isFinite 0x7F7FFFFF#32 = true ∧ isFinite 0x72FFFFFF#32 = true ∧
    NoOverflow (val 0x7F7FFFFF#32 + val 0x72FFFFFF#32) 1 ∧ NoOverflow (val 0x4B800001#32 + val 0x3F800000#32) 1 := by
  unfold NoOverflow; decide +kernel

theorem witness_MultiplicationRoundsToNearestEven :
    isFinite 0x7F7FFFFF#32 = true ∧ isFinite 0x00000001#32 = true ∧
    NoOverflow (val 0x7F7FFFFF#32 * val 0x3F800000#32) (2 ^ 149) ∧
    NoOverflow (val 0x00000001#32 * val 0x00000001#32) (2 ^ 149) := by
  unfold NoOverflow; decide +kernel

theorem witness_SpecialOperandsFollowTheStandard :
    isNaN 0x7FA00001#32 = true ∧ isNaN (fadd 0x7FA00001#32 0x3F800000#32) = true ∧
    isNaN (fsub 0x7F800000#32 0x7F800000#32) = true ∧ isNaN (fmul 0x7F800000#32 0x80000000#32) = true ∧
    isInf 0x7F800000#32 = true ∧ isInf 0xFF800000#32 = true ∧ isFinite 0x7F7FFFFF#32 = true ∧
    isFinite 0x80000000#32 = true ∧ val 0x80000000#32 = 0 ∧ isNaN 0x00000001#32 = false ∧ val 0x00000001#32 ≠ 0 ∧
    val 0x80000000#32 + val 0x00000000#32 = 0 ∧ val 0x3F800000#32 + val 0xBF800000#32 = 0 ∧
    isNaN (fmul 0x80000000#32 0x7F7FFFFF#32) = false ∧ ¬ NoOverflow (val 0x7F7FFFFF#32 + val 0x73000000#32) 1 ∧
    ¬ NoOverflow (val 0xFF7FFFFF#32 * val 0x40000000#32) (2 ^ 149) := by
  unfold NoOverflow; decide +kernel

theorem witness_ComparisonsOrderThePatterns :
    isNaN 0x7FC00000#32 = true ∧ isNaN 0x80000000#32 = false ∧ flt 0x80000000#32 0x00000000#32 = false ∧
    flt 0x80000001#32 0x00000000#32 = true ∧ flt 0xFF800000#32 0x7F800000#32 = true := by decide +kernel

theorem witness_SampleConversionsAreExactAndSaturate :
    (-65536 : Int) ≤ -65536 ∧ (65536 : Int) ≤ 65536 ∧ isFinite 0xC7000080#32 = true ∧ isNaN 0xFFC00000#32 = true := by
  decide +kernel

/-- A command word of FIR.RESET with each field that must be 0 not 0, and one of CTRL.NOP with INST not 0 (Encodes). -/
theorem witness_Encodes_reservedField :
    (0x10000001#32 : Word).toNat / 2 ^ 24 = 1 * 16 + 0 ∧ (0x10000001#32 : Word).toNat % 256 ≠ 0 ∧
    (0x10000100#32 : Word).toNat / 2 ^ 24 = 1 * 16 + 0 ∧ usesIdx 1 0 = false ∧
    (0x10000100#32 : Word).toNat / 2 ^ 8 % 4096 ≠ 0 ∧
    (0x00100000#32 : Word).toNat / 2 ^ 24 = 0 * 16 + 0 ∧ usesInst 0 0 = false ∧
    (0x00100000#32 : Word).toNat / 2 ^ 20 % 16 ≠ 0 := by decide +kernel

theorem witness_DecoderRejectsExactlyTheReservedEncodings :
    opsOf ((0x7A000000#32 : Word).toNat / 2 ^ 28) ≤ (0x7A000000#32 : Word).toNat / 2 ^ 24 % 16 ∧
    (0x10000100#32 : Word).toNat / 2 ^ 24 % 16 < opsOf ((0x10000100#32 : Word).toNat / 2 ^ 28) ∧
    usesIdx 1 0 = false ∧ (0x10000100#32 : Word).toNat / 2 ^ 8 % 4096 ≠ 0 := by decide +kernel

end Sys2Proof.Tests
end

section
/-! PROOFS. The state after power-on is well-formed (70_reset_and_hazards.md R360): each bank has the sizes its legal
parameters give, and every register starts within its legal values. -/

namespace Sys2Proof.Machine

/-- The power-on entries of a bank of filters have the lengths the parameters list. -/
theorem powerOn_firShape (c : Config) : FirShape (State.powerOn c) := by
  constructor <;> simp [State.powerOn, FirInst.powerOn, Function.comp_def]

theorem powerOn_iirShape (c : Config) : IirShape (State.powerOn c) := by
  refine ⟨?_, ?_, ?_⟩ <;> simp [State.powerOn, IirInst.powerOn, Function.comp_def]

/-- A clock-recovery entry starts with CURSOR and SP at 0, a legal index because SPS is not 0. -/
theorem powerOn_crShape (c : Config) (hc : c.Legal) : CrShape (State.powerOn c) := by
  obtain ⟨⟨hsps, _⟩, _⟩ := hc.sizes
  refine ⟨List.length_replicate, fun r hr => ?_⟩
  obtain rfl := List.eq_of_mem_replicate hr
  exact ⟨List.length_replicate, hsps, hsps⟩

/-- A PRBS entry starts with SCNT at 0, below LOCK_COUNT. -/
theorem powerOn_prbsShape (c : Config) : PrbsShape (State.powerOn c) := by
  refine ⟨List.length_replicate, fun p hp => ?_⟩
  obtain rfl := List.eq_of_mem_replicate hp
  decide

theorem powerOn_patShape (c : Config) : PatShape (State.powerOn c) := by
  refine ⟨List.length_replicate, fun p hp => ?_⟩
  obtain rfl := List.eq_of_mem_replicate hp
  exact ⟨List.length_replicate, Nat.zero_le _⟩

/-- The empty buffer, every byte of which reads 0, is legal at any size. -/
theorem bufferLegal_nil (size : Nat) : BufferLegal size [] :=
  ⟨⟨List.Pairwise.nil, List.forall_mem_nil _⟩, List.forall_mem_nil _⟩

/-- Legal parameters give a well-formed state at power-on. -/
theorem powerOn_inv (c : Config) (hc : c.Legal) : Inv (State.powerOn c) where
  cfg := hc
  fir := powerOn_firShape c
  iir := powerOn_iirShape c
  pwm := List.length_replicate
  cr := powerOn_crShape c hc
  prbs := powerOn_prbsShape c
  pat := powerOn_patShape c
  dcr := List.length_replicate
  ng := List.length_replicate
  inbuf := bufferLegal_nil _
  outbuf := bufferLegal_nil _
  record := .inl ⟨rfl, rfl, rfl⟩

/-- The DEFAULT table of 45_golay.md R240 is legal (log 3). Its generator words are written out: data bit k, then entry
GE[k], the highest k first. -/
theorem defaultGolayE_legal : GolayLegal Config.defaultGolayE :=
  golayLegal_of_units Config.defaultGolayE
    [0x800C75#24, 0x40063B#24, 0x200F68#24, 0x1007B4#24, 0x0803DA#24, 0x040D99#24, 0x0206CD#24, 0x010367#24,
     0x008DC6#24, 0x004A97#24, 0x00293E#24, 0x0018EB#24]
    (by decide +kernel) (by decide +kernel) (by decide +kernel)

/-- DEFAULT (00_scope.md R7) is legal whatever its PWM coefficients are. -/
theorem defaultWith_legal (coef : PwmCoef) : (Config.defaultWith coef).Legal where
  sizes := by
    simp [Config.SizesLegal, Config.SizeOk, Config.CountOk, Config.nfir, Config.niir, Config.defaultWith,
      Config.defaultGolayE]
  golay := defaultGolayE_legal

/-- Settles O11: each bank's shape follows from the parameters alone. -/
theorem powerOnIsWellFormed : Obligations.PowerOnIsWellFormed := powerOn_inv

/-- Settles O10: reset is power-on with DEFAULT, whose parameters are legal. -/
theorem resetStateIsWellFormed : Obligations.ResetStateIsWellFormed :=
  powerOn_inv Config.reference (defaultWith_legal _)

end Sys2Proof.Machine
end

section
/-! PROOFS. The fields of a binary32 pattern: what its three classes exclude, what a flipped sign leaves, and how
magnitude and value order the patterns. -/

namespace Sys2Proof.Machine

/-! ### The fields -/

theorem fracField_lt (f : F32) : fracField f < 2 ^ 23 := Nat.mod_lt _ (by decide)

theorem signBit_iff (f : F32) : signBit f = true ↔ 2 ^ 31 ≤ f.toNat := by
  have := f.isLt
  rw [signBit, BitVec.getLsbD, Nat.testBit_eq_decide_div_mod_eq, decide_eq_true_iff]
  omega

/-- Below the sign bit, a pattern is its exponent field followed by its fraction field. -/
theorem toNat_mod_eq_fields (f : F32) : f.toNat % 2 ^ 31 = expField f * 2 ^ 23 + fracField f := by
  unfold expField fracField; omega

/-- The three fields determine the pattern. -/
theorem eq_of_fields {f g : F32} (hs : signBit f = signBit g) (he : expField f = expField g)
    (hr : fracField f = fracField g) : f = g := by
  have hm : f.toNat % 2 ^ 31 = g.toNat % 2 ^ 31 := by rw [toNat_mod_eq_fields, toNat_mod_eq_fields, he, hr]
  have hd : 2 ^ 31 ≤ f.toNat ↔ 2 ^ 31 ≤ g.toNat := by rw [← signBit_iff, ← signBit_iff, hs]
  have := f.isLt
  have := g.isLt
  exact BitVec.eq_of_toNat_eq (by omega)

@[simp] theorem expField_fneg (f : F32) : expField (fneg f) = expField f := by
  simp only [expField, fneg, BitVec.toNat_xor, Nat.xor_div_two_pow, Nat.xor_mod_two_pow]
  simp

@[simp] theorem fracField_fneg (f : F32) : fracField (fneg f) = fracField f := by
  simp only [fracField, fneg, BitVec.toNat_xor, Nat.xor_mod_two_pow]
  simp

/-! ### The three classes of patterns -/

@[simp] theorem isNaN_fneg (f : F32) : isNaN (fneg f) = isNaN f := by simp [isNaN]

/-- A pattern is finite exactly when it is neither a NaN nor an infinity. -/
theorem isFinite_iff (f : F32) : isFinite f = true ↔ isNaN f = false ∧ isInf f = false := by
  by_cases he : expField f = 255 <;> by_cases hr : fracField f = 0 <;> simp [isFinite, isNaN, isInf, he, hr]

theorem isNaN_of_isFinite {f : F32} (h : isFinite f = true) : isNaN f = false := ((isFinite_iff f).1 h).1

theorem isInf_of_isFinite {f : F32} (h : isFinite f = true) : isInf f = false := ((isFinite_iff f).1 h).2

theorem isInf_iff (f : F32) : isInf f = true ↔ expField f = 255 ∧ fracField f = 0 := by simp [isInf]

theorem isNaN_of_isInf {f : F32} (h : isInf f = true) : isNaN f = false := by
  simp [isNaN, ((isInf_iff f).1 h).2]

/-- Two infinities of one sign are the same pattern. -/
theorem isInf_ext {f g : F32} (hf : isInf f = true) (hg : isInf g = true) (hs : signBit f = signBit g) : f = g := by
  obtain ⟨hfe, hfr⟩ := (isInf_iff f).1 hf
  obtain ⟨hge, hgr⟩ := (isInf_iff g).1 hg
  exact eq_of_fields hs (hfe.trans hge.symm) (hfr.trans hgr.symm)

/-- A pattern up to plus infinity is no NaN. -/
theorem isNaN_of_le {f : F32} (h : f.toNat ≤ 0x7F800000) : isNaN f = false := by
  have := toNat_mod_eq_fields f
  by_cases he : expField f = 255
  · have : fracField f = 0 := by omega
    simp [isNaN, this]
  · simp [isNaN, he]

/-- Nor is it with a sign set. -/
theorem isNaN_withSign {neg : Bool} {f : F32} (h : f.toNat ≤ 0x7F800000) : isNaN (withSign neg f) = false := by
  obtain ⟨he, hr, _⟩ := parts_withSign neg f (by omega)
  have hf := isNaN_of_le h
  rw [isNaN] at hf ⊢
  rw [he, hr, hf]

/-! ### Magnitude and value -/

/-- The magnitude of a pattern is rising in its 31 bits below the sign. -/
theorem mag_lt_of_mod_lt {f g : F32} (h : f.toNat % 2 ^ 31 < g.toNat % 2 ^ 31) : mag f < mag g := by
  have hf := fracField_lt f
  have hg := fracField_lt g
  rw [toNat_mod_eq_fields, toNat_mod_eq_fields] at h
  unfold mag
  rcases Nat.lt_trichotomy (expField f) (expField g) with he | he | he
  · have hge : 2 ^ 23 * 2 ^ (expField g - 1) ≤ (2 ^ 23 + fracField g) * 2 ^ (expField g - 1) :=
      Nat.mul_le_mul_right _ (Nat.le_add_right _ _)
    rw [if_neg (show ¬ expField g = 0 by omega)]
    refine Nat.lt_of_lt_of_le ?_ hge
    split
    · exact Nat.lt_of_lt_of_le hf (Nat.le_mul_of_pos_right _ (Nat.two_pow_pos _))
    · calc (2 ^ 23 + fracField f) * 2 ^ (expField f - 1)
          < 2 ^ 24 * 2 ^ (expField f - 1) := Nat.mul_lt_mul_of_pos_right (by omega) (Nat.two_pow_pos _)
        _ = 2 ^ 23 * 2 ^ (expField f - 1 + 1) := by ring
        _ ≤ 2 ^ 23 * 2 ^ (expField g - 1) :=
          Nat.mul_le_mul_left _ (Nat.pow_le_pow_right (by decide) (by omega))
  · rw [he]
    split
    · omega
    · exact Nat.mul_lt_mul_of_pos_right (by omega) (Nat.two_pow_pos _)
  · omega

theorem mag_eq_of_mod_eq {f g : F32} (h : f.toNat % 2 ^ 31 = g.toNat % 2 ^ 31) : mag f = mag g := by
  have hf := fracField_lt f
  have hg := fracField_lt g
  rw [toNat_mod_eq_fields, toNat_mod_eq_fields] at h
  have he : expField f = expField g := by omega
  have hr : fracField f = fracField g := by omega
  unfold mag; rw [he, hr]

/-- Magnitudes are ordered as the 31 bits below the sign. -/
theorem mag_lt_iff (f g : F32) : mag f < mag g ↔ f.toNat % 2 ^ 31 < g.toNat % 2 ^ 31 := by
  refine ⟨fun h => ?_, mag_lt_of_mod_lt⟩
  rcases Nat.lt_trichotomy (f.toNat % 2 ^ 31) (g.toNat % 2 ^ 31) with hlt | heq | hgt
  · exact hlt
  · exact absurd (mag_eq_of_mod_eq heq) (Nat.ne_of_lt h)
  · exact absurd (mag_lt_of_mod_lt hgt) (Nat.lt_asymm h)

/-- Only the two zeros have magnitude 0. -/
theorem mag_eq_zero_iff (f : F32) : mag f = 0 ↔ f.toNat % 2 ^ 31 = 0 := by
  have h := mag_lt_iff 0#32 f
  have h0 : mag 0#32 = 0 := by decide
  rw [h0] at h
  simp only [BitVec.toNat_ofNat, Nat.zero_mod] at h
  omega

/-- An infinity's magnitude is not 0. -/
theorem mag_ne_zero_of_isInf {f : F32} (h : isInf f = true) : mag f ≠ 0 := by
  obtain ⟨he, hr⟩ := (isInf_iff f).1 h
  rw [Ne, mag_eq_zero_iff, toNat_mod_eq_fields, he, hr]
  decide

theorem val_of_neg {f : F32} (h : signBit f = true) : val f = -(mag f : Int) := by rw [val, if_pos h]

theorem val_of_pos {f : F32} (h : signBit f = false) : val f = mag f := by rw [val, h]; rfl

theorem abs_val (f : F32) : |val f| = mag f := by
  cases hs : signBit f
  · rw [val_of_pos hs, Nat.abs_cast]
  · rw [val_of_neg hs, abs_neg, Nat.abs_cast]

theorem val_eq_zero_iff (f : F32) : val f = 0 ↔ mag f = 0 := by
  rw [← abs_eq_zero, abs_val, Int.natCast_eq_zero]

/-- The values order the patterns: upwards without a sign, downwards with it, and a signed pattern below an unsigned
one unless both are zeros. -/
theorem val_lt_iff (f g : F32) : val f < val g ↔
    (f.toNat < 2 ^ 31 ∧ g.toNat < 2 ^ 31 ∧ f.toNat < g.toNat) ∨
    (2 ^ 31 ≤ f.toNat ∧ 2 ^ 31 ≤ g.toNat ∧ g.toNat < f.toNat) ∨
    (2 ^ 31 ≤ f.toNat ∧ g.toNat < 2 ^ 31 ∧ ¬ (f.toNat = 2 ^ 31 ∧ g.toNat = 0)) := by
  have hf := f.isLt
  have hg := g.isLt
  have hfs := signBit_iff f
  have hgs := signBit_iff g
  have hlt := mag_lt_iff f g
  have hgt := mag_lt_iff g f
  have hf0 := mag_eq_zero_iff f
  have hg0 := mag_eq_zero_iff g
  cases hsf : signBit f <;> cases hsg : signBit g <;> simp only [hsf, hsg, true_iff, false_iff, reduceCtorEq] at hfs hgs
  · rw [val_of_pos hsf, val_of_pos hsg]; omega
  · rw [val_of_pos hsf, val_of_neg hsg]; omega
  · rw [val_of_neg hsf, val_of_pos hsg]; omega
  · rw [val_of_neg hsf, val_of_neg hsg]; omega

/-! ### The comparisons -/

/-- Settles O59: between patterns that are no NaN, the comparisons are those of the values. -/
theorem comparisonsOrderThePatterns : Obligations.ComparisonsOrderThePatterns := by
  intro a b
  constructor
  · rintro (h | h) <;> simp [flt, fle, fge, h]
  · intro ha hb
    refine ⟨?_, ?_, ?_⟩
    · rw [← val_lt_iff]
      simp [flt, ha, hb]
    · simp [fle, flt, ha, hb, ← decide_not]
    · simp [fge, fle, flt, ha, hb, ← decide_not]

end Sys2Proof.Machine
end

section
/-! PROOFS. fadd and fmul round the exact result once (00_scope.md R13): both answer a signed `roundMag` of the exact
magnitude, and a signed `roundMag` is the nearest finite pattern, or an infinity from the overflow threshold on. -/

namespace Sys2Proof.Machine

open Sys2Proof.Spec

/-! ### A rounded magnitude with a sign -/

/-- The sign `neg` is that of the exact value x; a zero may have either. -/
def SignOf (neg : Bool) (x : Int) : Prop := (x < 0 → neg = true) ∧ (0 < x → neg = false)

theorem signOf_decide (x : Int) : SignOf (decide (x < 0)) x :=
  ⟨decide_eq_true, fun h => decide_eq_false (not_lt_of_gt h)⟩

/-- A magnitude with its sign is the value. -/
theorem SignOf.apply_natAbs {neg : Bool} {x : Int} (h : SignOf neg x) :
    (if neg then -(x.natAbs : Int) else x.natAbs) = x := by
  obtain ⟨hneg, hpos⟩ := h
  rcases lt_trichotomy x 0 with hx | rfl | hx
  · rw [hneg hx, if_pos rfl]; omega
  · simp
  · rw [hpos hx, if_neg (by decide)]; omega

/-- Away from 0 the sign is the value's. -/
theorem SignOf.eq_decide {neg : Bool} {x : Int} (h : SignOf neg x) (hx : x ≠ 0) : neg = decide (x < 0) := by
  obtain ⟨hneg, hpos⟩ := h
  rcases lt_or_gt_of_ne hx with hlt | hgt
  · rw [hneg hlt, decide_eq_true hlt]
  · rw [hpos hgt, decide_eq_false (by omega)]

/-- Not overflowing is a bound on the magnitude. -/
theorem noOverflow_iff (x : Int) (u : Nat) :
    NoOverflow x (2 ^ u) ↔ x.natAbs < (2 ^ 25 - 1) * 2 ^ 252 * 2 ^ u := by
  have hcast : (((2 ^ 25 - 1) * 2 ^ 252 * 2 ^ u : Nat) : Int) = (2 ^ 25 - 1) * 2 ^ 252 * 2 ^ u := by norm_cast
  rw [NoOverflow, ← hcast, ← abs_lt, Int.abs_eq_natAbs, Int.ofNat_lt]

theorem roundMag_zero (u : Nat) : roundMag 0 u = 0#32 := by
  have hd : dropBits 0 u = u := by simp [dropBits]
  have hn : nearestEven 0 u = 0 := by simp [nearestEven]
  simp [roundMag, hd, hn]

/-- From the overflow threshold on, a magnitude rounds to infinity. -/
theorem roundMag_of_overflow {p u : Nat} (h : ¬ p < (2 ^ 25 - 1) * 2 ^ 252 * 2 ^ u) :
    roundMag p u = 0x7F800000#32 := by
  rw [← roundMag_overflow] at h
  rw [roundMag, if_neg h]

/-- An exact value's distance to a signed number is at least the distance of the magnitudes. -/
theorem abs_natAbs_sub_le (f : F32) (x : Int) (u : Nat) :
    |((mag f * 2 ^ u : Nat) : Int) - x.natAbs| ≤ |val f * 2 ^ u - x| := by
  have h := abs_abs_sub_abs_le (val f * 2 ^ u) x
  rw [abs_mul, abs_val, abs_of_pos (show (0 : Int) < 2 ^ u by positivity), Int.abs_eq_natAbs x] at h
  push_cast at h ⊢
  exact h

/-- With the value's own sign it is that distance. -/
theorem abs_val_withSign_sub {neg : Bool} {x : Int} (hs : SignOf neg x) {r : F32} (hr : r.toNat < 2 ^ 31) (u : Nat) :
    |val (withSign neg r) * 2 ^ u - x| = |((mag r * 2 ^ u : Nat) : Int) - x.natAbs| := by
  rw [val_withSign neg r hr]
  conv_lhs => rw [← hs.apply_natAbs]
  cases neg
  · simp
  · rw [if_pos rfl, if_pos rfl, ← abs_neg]
    push_cast
    congr 1
    ring

/-- A sign leaves the last significand bit. -/
theorem getLsbD_zero_withSign (neg : Bool) (f : F32) : (withSign neg f).getLsbD 0 = f.getLsbD 0 := by
  cases neg
  · rfl
  · simp [withSign]

/-- A value and its negation are equally near to 0 alone. -/
theorem eq_zero_of_opposite {v x S : Int} (hv : v ≠ 0) (hS : 0 < S) (h : |-v * S - x| = |v * S - x|) : x = 0 := by
  have hm : v * S ≠ 0 := mul_ne_zero hv (ne_of_gt hS)
  rw [neg_mul] at h
  generalize v * S = m at *
  simp only [abs_eq_max_neg] at h
  omega

/-- A different value that is as near as the rounded one has a different magnitude: the negation is as near only where
the exact value is 0, and 0 rounds to itself. -/
theorem mag_ne_of_tie {neg : Bool} {x : Int} {u : Nat} (hr : (roundMag x.natAbs u).toNat < 2 ^ 31) {f : F32}
    (hne : val f ≠ val (withSign neg (roundMag x.natAbs u)))
    (htie : |val f * 2 ^ u - x| = |val (withSign neg (roundMag x.natAbs u)) * 2 ^ u - x|) :
    mag f ≠ mag (roundMag x.natAbs u) := by
  intro hmag
  have habs : |val f| = |val (withSign neg (roundMag x.natAbs u))| := by
    rw [abs_val, abs_val, mag_withSign neg _ hr, hmag]
  have hopp := (abs_eq_abs.1 habs).resolve_left hne
  have hv : val (withSign neg (roundMag x.natAbs u)) ≠ 0 := fun h0 => hne (by rw [hopp, h0, neg_zero])
  rw [hopp] at htie
  obtain rfl : x = 0 := eq_zero_of_opposite hv (by positivity) htie
  rw [Ne, val_eq_zero_iff, mag_withSign neg _ hr, Int.natAbs_zero, roundMag_zero] at hv
  exact hv (by decide)

/-- A rounding below the overflow threshold, with the exact value's sign, is the nearest finite pattern, ties to even
(00_scope.md R13). -/
theorem nearestEven_withSign_roundMag {neg : Bool} {x : Int} (hs : SignOf neg x) {u : Nat}
    (hx : NoOverflow x (2 ^ u)) : NearestEven (withSign neg (roundMag x.natAbs u)) x (2 ^ u) := by
  have hov := (roundMag_overflow x.natAbs u).2 ((noOverflow_iff x u).1 hx)
  have hlt := roundMag_isFinite x.natAbs u hov
  have hr : (roundMag x.natAbs u).toNat < 2 ^ 31 := by omega
  have hdist := abs_val_withSign_sub hs hr u
  refine ⟨isFinite_withSign neg _ hlt, fun f hf => ?_, fun f hf hne htie => ?_⟩
  · rw [hdist]
    exact le_trans (roundMag_best x.natAbs u hov f hf).1 (abs_natAbs_sub_le f x u)
  · obtain ⟨hbest, heven⟩ := roundMag_best x.natAbs u hov f hf
    have hle := abs_natAbs_sub_le f x u
    rw [htie, hdist] at hle
    have hpar := heven (mag_ne_of_tie hr hne htie) (le_antisymm hle hbest)
    rw [getLsbD_zero_withSign, BitVec.getLsbD, Nat.testBit_zero, hpar]
    rfl

/-- A rounding from the overflow threshold on is the infinity of the exact value's sign. -/
theorem withSign_roundMag_of_overflow {neg : Bool} {x : Int} (hs : SignOf neg x) {u : Nat}
    (hx : ¬ NoOverflow x (2 ^ u)) :
    withSign neg (roundMag x.natAbs u) = if x < 0 then 0xFF800000#32 else 0x7F800000#32 := by
  rw [noOverflow_iff] at hx
  have h0 : x ≠ 0 := by
    rintro rfl
    exact hx (by rw [Int.natAbs_zero]; positivity)
  rw [roundMag_of_overflow hx, hs.eq_decide h0]
  by_cases hneg : x < 0 <;> simp [hneg, withSign]

/-! ### Sums -/

/-- The sign the model gives a finite sum. -/
def sumSign (a b : F32) : Bool :=
  if val a + val b = 0 then signBit a && signBit b else decide (val a + val b < 0)

theorem sumSign_signOf (a b : F32) : SignOf (sumSign a b) (val a + val b) := by
  unfold sumSign
  split
  · next h0 => rw [h0]; exact ⟨fun h => absurd h (lt_irrefl 0), fun h => absurd h (lt_irrefl 0)⟩
  · exact signOf_decide _

/-- A finite sum is the exact sum rounded, with its sign. -/
theorem faddFinite_eq (a b : F32) :
    faddFinite a b = withSign (sumSign a b) (roundMag (val a + val b).natAbs 0) := by
  unfold faddFinite sumSign
  split
  · next h0 => rw [h0, Int.natAbs_zero, roundMag_zero]
  · rfl

/-- The sum of finite patterns. -/
theorem fadd_of_isFinite {a b : F32} (ha : isFinite a = true) (hb : isFinite b = true) :
    fadd a b = withSign (sumSign a b) (roundMag (val a + val b).natAbs 0) := by
  rw [← faddFinite_eq]
  simp [fadd, isNaN_of_isFinite ha, isNaN_of_isFinite hb, isInf_of_isFinite ha, isInf_of_isFinite hb]

/-- Settles O56: fadd answers the signed rounding of the exact sum. -/
theorem additionRoundsToNearestEven : Obligations.AdditionRoundsToNearestEven := by
  intro a b ha hb hov
  rw [fadd_of_isFinite ha hb]
  exact nearestEven_withSign_roundMag (sumSign_signOf a b) (u := 0) hov

/-! ### Products -/

/-- A magnitude has the sign it is given. -/
theorem signOf_ite (neg : Bool) (m : Nat) : SignOf neg (if neg then -(m : Int) else m) := by
  cases neg
  · exact ⟨fun h => absurd h (by simp), fun _ => rfl⟩
  · exact ⟨fun _ => rfl, fun h => absurd h (by simp)⟩

/-- The exact product: the magnitudes' product with the exclusive or of the signs. -/
theorem val_mul (a b : F32) :
    val a * val b = if signBit a != signBit b then -((mag a * mag b : Nat) : Int) else (mag a * mag b : Nat) := by
  unfold val
  cases signBit a <;> cases signBit b <;> simp

theorem signOf_val_mul (a b : F32) : SignOf (signBit a != signBit b) (val a * val b) := by
  rw [val_mul]
  exact signOf_ite _ _

theorem natAbs_val_mul (a b : F32) : (val a * val b).natAbs = mag a * mag b := by
  rw [← Int.natCast_inj, ← Int.abs_eq_natAbs, abs_mul, abs_val, abs_val, Int.natCast_mul]

/-- The product of finite patterns. -/
theorem fmul_of_isFinite {a b : F32} (ha : isFinite a = true) (hb : isFinite b = true) :
    fmul a b = withSign (signBit a != signBit b) (roundMag (val a * val b).natAbs 149) := by
  rw [natAbs_val_mul]
  simp [fmul, isNaN_of_isFinite ha, isNaN_of_isFinite hb, isInf_of_isFinite ha, isInf_of_isFinite hb]

/-- Settles O57: fmul answers the signed rounding of the exact product. -/
theorem multiplicationRoundsToNearestEven : Obligations.MultiplicationRoundsToNearestEven := by
  intro a b ha hb hov
  rw [fmul_of_isFinite ha hb]
  exact nearestEven_withSign_roundMag (signOf_val_mul a b) hov

end Sys2Proof.Machine
end

section
/-! PROOFS. The operands and results of fadd, fsub and fmul that IEEE 754 treats apart (00_scope.md R13, log 9, log 10):
NaNs, infinities, zeros and overflow. Each operation gets one lemma that lists its answers. -/

namespace Sys2Proof.Machine

open Sys2Proof.Spec

/-! ### NaN -/

theorem fadd_of_isNaN {a b : F32} (h : isNaN a = true ∨ isNaN b = true) : fadd a b = quietNaN := by
  rw [← Bool.or_eq_true] at h
  rw [fadd, if_pos h]

theorem fsub_of_isNaN {a b : F32} (h : isNaN a = true ∨ isNaN b = true) : fsub a b = quietNaN :=
  fadd_of_isNaN (by rwa [isNaN_fneg])

theorem fmul_of_isNaN {a b : F32} (h : isNaN a = true ∨ isNaN b = true) : fmul a b = quietNaN := by
  rw [← Bool.or_eq_true] at h
  rw [fmul, if_pos h]

/-- A signed rounding is no NaN. -/
theorem isNaN_withSign_roundMag (neg : Bool) (p u : Nat) : isNaN (withSign neg (roundMag p u)) = false :=
  isNaN_withSign (roundMag_lt p u)

/-- What fadd can answer: the quiet NaN, an infinite operand, or a finite sum rounded. -/
theorem fadd_cases (a b : F32) : fadd a b = quietNaN ∨ (isInf a = true ∧ fadd a b = a) ∨
    (isInf b = true ∧ fadd a b = b) ∨ fadd a b = faddFinite a b := by
  unfold fadd
  split
  · exact .inl rfl
  · split
    · next ha =>
      split
      · exact .inl rfl
      · exact .inr (.inl ⟨ha, rfl⟩)
    · split
      · next hb => exact .inr (.inr (.inl ⟨hb, rfl⟩))
      · exact .inr (.inr (.inr rfl))

/-- What fmul can answer: the quiet NaN, or a pattern up to infinity with the product's sign. -/
theorem fmul_cases (a b : F32) : fmul a b = quietNaN ∨
    ∃ r : F32, r.toNat ≤ 0x7F800000 ∧ fmul a b = withSign (signBit a != signBit b) r := by
  unfold fmul
  split
  · exact .inl rfl
  · split
    · split
      · exact .inl rfl
      · exact .inr ⟨_, le_refl _, rfl⟩
    · exact .inr ⟨_, roundMag_lt _ _, rfl⟩

theorem fadd_eq_quietNaN {a b : F32} (h : isNaN (fadd a b) = true) : fadd a b = quietNaN := by
  rcases fadd_cases a b with hq | ⟨ha, he⟩ | ⟨hb, he⟩ | he
  · exact hq
  · rw [he, isNaN_of_isInf ha] at h; cases h
  · rw [he, isNaN_of_isInf hb] at h; cases h
  · rw [he, faddFinite_eq, isNaN_withSign_roundMag] at h; cases h

theorem fmul_eq_quietNaN {a b : F32} (h : isNaN (fmul a b) = true) : fmul a b = quietNaN := by
  rcases fmul_cases a b with hq | ⟨r, hr, he⟩
  · exact hq
  · rw [he, isNaN_withSign hr] at h; cases h

/-- A product that is no NaN has the exclusive or of the signs. -/
theorem signBit_fmul {a b : F32} (h : isNaN (fmul a b) = false) : signBit (fmul a b) = (signBit a != signBit b) := by
  rcases fmul_cases a b with hq | ⟨r, hr, he⟩
  · rw [hq] at h; exact absurd h (by decide)
  · rw [he]
    exact (parts_withSign _ r (by omega)).2.2

/-! ### Infinities -/

/-- Two infinities add to themselves, or to NaN if they are opposite. -/
theorem fadd_of_isInf_isInf {a b : F32} (ha : isInf a = true) (hb : isInf b = true) :
    fadd a b = if a = b then a else quietNaN := by
  have hsame : a = b ↔ signBit a = signBit b := ⟨fun h => h ▸ rfl, isInf_ext ha hb⟩
  simp only [fadd, isNaN_of_isInf ha, isNaN_of_isInf hb, ha, hb, hsame]
  by_cases hs : signBit a = signBit b <;> simp [hs]

theorem fadd_of_isInf_left {a b : F32} (ha : isInf a = true) (hb : isFinite b = true) : fadd a b = a := by
  simp [fadd, isNaN_of_isInf ha, isNaN_of_isFinite hb, ha, isInf_of_isFinite hb]

theorem fadd_of_isInf_right {a b : F32} (ha : isFinite a = true) (hb : isInf b = true) : fadd a b = b := by
  simp [fadd, isNaN_of_isInf hb, isNaN_of_isFinite ha, hb, isInf_of_isFinite ha]

theorem fmul_comm (a b : F32) : fmul a b = fmul b a := by
  simp only [fmul, Bool.or_comm (isNaN a) (isNaN b), Bool.or_comm (isInf a) (isInf b), bne_comm (a := signBit a),
    or_comm (a := mag a = 0), Nat.mul_comm (mag a)]

/-- An infinity times a zero is NaN. -/
theorem fmul_of_isInf_zero {a b : F32} (ha : isInf a = true) (hb : isNaN b = false) (h0 : val b = 0) :
    fmul a b = quietNaN := by
  rw [val_eq_zero_iff] at h0
  simp [fmul, isNaN_of_isInf ha, hb, ha, h0]

/-- An infinity times any other number is the infinity of the product's sign. -/
theorem fmul_of_isInf_ne_zero {a b : F32} (ha : isInf a = true) (hb : isNaN b = false) (h0 : val b ≠ 0) :
    fmul a b = withSign (signBit a != signBit b) 0x7F800000#32 := by
  rw [Ne, val_eq_zero_iff] at h0
  simp [fmul, isNaN_of_isInf ha, hb, ha, h0, mag_ne_zero_of_isInf ha]

theorem withSign_bne_infinity (s t : Bool) :
    withSign (s != t) 0x7F800000#32 = if s = t then 0x7F800000#32 else 0xFF800000#32 := by
  cases s <;> cases t <;> rfl

/-! ### Zero sums and overflow -/

/-- The one negative pattern of magnitude 0 is -0.0. -/
theorem eq_negZero_iff (f : F32) : f = 0x80000000#32 ↔ signBit f = true ∧ mag f = 0 := by
  refine ⟨fun h => h ▸ by decide, fun ⟨hs, hm⟩ => BitVec.eq_of_toNat_eq ?_⟩
  rw [signBit_iff] at hs
  rw [mag_eq_zero_iff] at hm
  have := f.isLt
  show f.toNat = 2 ^ 31
  omega

/-- Of an exact zero sum, both operands are negative exactly if both are -0.0. -/
theorem signs_of_zero_sum {a b : F32} (h0 : val a + val b = 0) :
    (signBit a && signBit b) = true ↔ a = 0x80000000#32 ∧ b = 0x80000000#32 := by
  rw [Bool.and_eq_true, eq_negZero_iff, eq_negZero_iff]
  constructor
  · rintro ⟨hsa, hsb⟩
    rw [val_of_neg hsa, val_of_neg hsb] at h0
    exact ⟨⟨hsa, by omega⟩, ⟨hsb, by omega⟩⟩
  · rintro ⟨⟨hsa, _⟩, ⟨hsb, _⟩⟩
    exact ⟨hsa, hsb⟩

/-- An exact zero sum is -0.0 only if both operands are. -/
theorem fadd_of_zero_sum {a b : F32} (ha : isFinite a = true) (hb : isFinite b = true) (h0 : val a + val b = 0) :
    fadd a b = if a = 0x80000000#32 ∧ b = 0x80000000#32 then 0x80000000#32 else 0x00000000#32 := by
  rw [fadd_of_isFinite ha hb, h0, Int.natAbs_zero, roundMag_zero, sumSign, if_pos h0]
  by_cases hz : a = 0x80000000#32 ∧ b = 0x80000000#32
  · rw [if_pos hz, (signs_of_zero_sum h0).2 hz]; rfl
  · rw [if_neg hz, Bool.eq_false_iff.2 (mt (signs_of_zero_sum h0).1 hz)]; rfl

/-- Settles O58: one lemma above for each clause. -/
theorem specialOperandsFollowTheStandard : Obligations.SpecialOperandsFollowTheStandard := by
  intro a b
  refine ⟨fun h => ⟨fadd_of_isNaN h, fsub_of_isNaN h, fmul_of_isNaN h⟩, fadd_eq_quietNaN, fadd_eq_quietNaN,
    fmul_eq_quietNaN, fadd_of_isInf_isInf, ?infinitePlusFinite, ?infiniteTimesZero, ?infiniteTimesNonzero,
    fadd_of_zero_sum, signBit_fmul, rfl, ?sumOverflow, ?productOverflow⟩
  case infinitePlusFinite => exact fun ha hb => ⟨fadd_of_isInf_left ha hb, fadd_of_isInf_right hb ha⟩
  case infiniteTimesZero =>
    intro ha hb h0
    have hq := fmul_of_isInf_zero ha (isNaN_of_isFinite hb) h0
    exact ⟨hq, (fmul_comm b a).trans hq⟩
  case infiniteTimesNonzero =>
    intro ha hb h0
    exact ⟨(fmul_of_isInf_ne_zero ha hb h0).trans (withSign_bne_infinity _ _), fmul_comm b a⟩
  case sumOverflow =>
    intro ha hb hov
    rw [fadd_of_isFinite ha hb]
    exact withSign_roundMag_of_overflow (sumSign_signOf a b) (u := 0) hov
  case productOverflow =>
    intro ha hb hov
    rw [fmul_of_isFinite ha hb]
    exact withSign_roundMag_of_overflow (signOf_val_mul a b) hov

end Sys2Proof.Machine
end

section
/-! PROOFS. The sample conversions (00_scope.md R15): a sample has few enough significant bits that f32_of_s16 rounds
nothing away, and cvt_s16 truncates the exact value. -/

namespace Sys2Proof.Machine

/-- Rounding changes no multiple of the unit. -/
theorem nearestEven_mul_of_dvd {p k : Nat} (h : 2 ^ k ∣ p) : nearestEven p k * 2 ^ k = p := by
  have hk := Nat.two_pow_pos k
  rw [nearestEven, Nat.mod_eq_zero_of_dvd h, if_neg (by omega), Nat.div_mul_cancel h]

/-- A magnitude of at most 24 significant bits above a unit 2^k is kept exactly. -/
theorem mag_roundMag_of_dvd {p k : Nat} (hdvd : 2 ^ k ∣ p) (hlt : p < 2 ^ 24 * 2 ^ k) (hk : k ≤ 252) :
    (roundMag p 0).toNat < 0x7F800000 ∧ mag (roundMag p 0) = p := by
  have hov : p < (2 ^ 25 - 1) * 2 ^ 252 * 2 ^ 0 := by
    rw [pow_zero, Nat.mul_one]
    exact Nat.lt_of_lt_of_le hlt (Nat.mul_le_mul (by decide) (Nat.pow_le_pow_right (by decide) hk))
  rw [← roundMag_overflow] at hov
  have hdrop : dropBits p 0 ≤ k := by
    by_cases hp : p = 0
    · simp [hp, dropBits]
    · have := (Nat.log2_lt hp).2 (by rwa [← Nat.pow_add] at hlt)
      unfold dropBits
      omega
  refine ⟨roundMag_isFinite p 0 hov, ?_⟩
  rw [(roundMag_finite p 0 hov).1, Nat.sub_zero]
  exact nearestEven_mul_of_dvd (dvd_trans (pow_dvd_pow 2 hdrop) hdvd)

/-- An integer of at most 24 significant bits converts exactly. -/
theorem f32OfInt_exact {i : Int} (h : i.natAbs < 2 ^ 24) :
    isFinite (f32OfInt i) = true ∧ val (f32OfInt i) = i * 2 ^ 149 := by
  obtain ⟨hfin, hmag⟩ := mag_roundMag_of_dvd (Nat.dvd_mul_left (2 ^ 149) i.natAbs)
    (Nat.mul_lt_mul_of_pos_right h (Nat.two_pow_pos 149)) (by decide)
  refine ⟨isFinite_withSign _ _ hfin, ?_⟩
  rw [f32OfInt, val_withSign _ _ (by omega), hmag]
  conv_rhs => rw [← (signOf_decide i).apply_natAbs]
  push_cast
  split <;> ring

/-- Truncating the magnitude truncates the value toward zero. -/
theorem truncVal_eq_tdiv (f : F32) : truncVal f = (val f).tdiv (2 ^ 149) := by
  have hpos : ((mag f / 2 ^ 149 : Nat) : Int) = (mag f : Int).tdiv (2 ^ 149) := by
    rw [Int.ofNat_tdiv]; rfl
  unfold truncVal val
  split
  · rw [hpos, Int.neg_tdiv]
  · exact hpos

theorem cvtS16_of_isNaN {f : F32} (h : isNaN f = true) : cvtS16 f = 0 := by rw [cvtS16, if_pos h]

/-- What is no NaN is truncated, then clamped to the samples. -/
theorem cvtS16_of_not_isNaN {f : F32} (h : isNaN f = false) :
    cvtS16 f = max (-32768) (min 32767 ((val f).tdiv (2 ^ 149))) := by
  rw [cvtS16, h, truncVal_eq_tdiv]
  rfl

/-- Settles O60: a sample has at most 17 significant bits, so its conversion is exact. -/
theorem sampleConversionsAreExactAndSaturate : Obligations.SampleConversionsAreExactAndSaturate := by
  refine ⟨fun i hlo hhi => ?_, fun f hf => cvtS16_of_not_isNaN (isNaN_of_isFinite hf), fun f => cvtS16_of_isNaN,
    by decide +kernel, by decide +kernel⟩
  obtain ⟨hfin, hval⟩ := f32OfInt_exact (i := i) (by omega)
  refine ⟨hfin, hval, ?_⟩
  rintro rfl
  rw [f32OfInt, Int.natAbs_zero, Nat.zero_mul, roundMag_zero]
  rfl

end Sys2Proof.Machine
end

section
/-! PROOFS. The decoder loses no field of a command word: the command it answers has the fields of the word, and so
encodes to the CMD word it was read from. -/

namespace Sys2Proof

/-- Whichever row UNIT and OP select (30_encoding.md R112), the command takes each free field from the word, and the
fields the row fixes at 0 are 0. -/
theorem fields_of_decodeFields {f : Fields} {arg : Word} {i : Instr} (h : decodeFields f arg = .ok i) :
    i.fields = f := by
  obtain ⟨unit, op, inst, idx, rsv⟩ := f
  simp only [decodeFields, decodeCtrl, decodeFir, decodeIir, decodePwm, decodeCr, decodePrbs, decodeGolay, decodePunc,
    decodeDcr, decodeNg, decodeConv, plain, withInst, withIdx, withBoth] at h
  split at h
  case h_12 => cases h
  all_goals split at h <;> simp only [ifZero_ok, reduceCtorEq] at h
  all_goals
    obtain ⟨hzero, rfl⟩ := h
    simp_all [Instr.fields]

/-- The words of a decoded command: the CMD word is the one the host wrote (log 6). -/
theorem encode_cmd_of_decode {c : Command} {i : Instr} (h : decode c = .ok i) : (encode i).cmd = c.cmd := by
  show pack i.fields = c.cmd
  rw [fields_of_decodeFields h, pack_fieldsOf]

/-- The CMD word 0 is CTRL.NOP (40_control.md R141), whatever ARG is. -/
theorem decode_of_cmd_zero {c : Command} (h : c.cmd = 0#32) : decode c = .ok (.ctrlNop c.arg) := by
  rw [decode, h]
  rfl

end Sys2Proof
end

section
/-! PROOFS. What each unit does to one entry of its bank keeps the entry's shape and its legal values. -/

namespace Sys2Proof.Machine

/-! ### Filters: the lengths of taps, coefficients and histories -/

@[simp] theorem FirInst.clear_taps (f : FirInst) : f.clear.taps = f.taps := rfl
@[simp] theorem FirInst.clear_hist_length (f : FirInst) : f.clear.hist.length = f.hist.length := List.length_map ..
@[simp] theorem firPush_taps (f : FirInst) (x : F32) : (firPush f x).taps = f.taps := rfl
@[simp] theorem firPush_hist_length (f : FirInst) (x : F32) : (firPush f x).hist.length = f.hist.length :=
  pushHist_length ..

@[simp] theorem IirInst.clear_num (f : IirInst) : f.clear.num = f.num := rfl
@[simp] theorem IirInst.clear_den (f : IirInst) : f.clear.den = f.den := rfl
@[simp] theorem IirInst.clear_w_length (f : IirInst) : f.clear.w.length = f.w.length := List.length_map ..
@[simp] theorem iirPush_num (f : IirInst) (x : F32) : (iirPush f x).num = f.num := rfl
@[simp] theorem iirPush_den (f : IirInst) (x : F32) : (iirPush f x).den = f.den := rfl
@[simp] theorem iirPush_w_length (f : IirInst) (x : F32) : (iirPush f x).w.length = f.w.length := pushHist_length ..

/-! ### Clock recovery: SPS bins, CURSOR and SP below SPS (10_state.md R40) -/

theorem crLegal_clear {sps : Nat} {c : CrInst} (h : CrLegal sps c) : CrLegal sps c.clear := by
  obtain ⟨hbins, hcursor, -⟩ := h
  have hsps : 0 < sps := Nat.zero_lt_of_lt hcursor
  exact ⟨(List.length_map ..).trans hbins, hsps, hsps⟩

theorem crLegal_crTake {sps : Nat} {c : CrInst} (h : CrLegal sps c) (x : Int) : CrLegal sps (crTake sps c x) := by
  obtain ⟨hbins, hcursor, hsp⟩ := h
  exact ⟨List.length_set.trans hbins, Nat.mod_lt _ (Nat.zero_lt_of_lt hcursor), hsp⟩

/-- The new sampling point lies below SPS: the scan answers 0 or the index of a bin. -/
theorem newSp_lt {sps : Nat} {es : List (BitVec 32)} (hsps : 0 < sps) (hbins : es.length = sps) (b : Bool) :
    newSp sps (crossing b 0 es) < sps := by
  have hscan := crossing_lt es b 0
  unfold newSp
  split <;> omega

theorem crLegal_crUpdated {sps : Nat} {c : CrInst} (h : CrLegal sps c) : CrLegal sps (crUpdated sps c) := by
  unfold crUpdated
  split
  · exact h
  · obtain ⟨hbins, hcursor, -⟩ := h
    exact ⟨(List.length_map ..).trans hbins, hcursor, newSp_lt (Nat.zero_lt_of_lt hcursor) hbins false⟩

/-! ### PRBS: an SCNT that has reached LOCK_COUNT comes with LOCKED (44_prbs9.md R223) -/

theorem prbsLegal_clear (p : PrbsInst) : PrbsLegal p.clear := fun h =>
  absurd h (show ¬ lockCount ≤ (0#8).toNat by decide)

/-- PRBS.GEN writes LFSR alone. -/
theorem prbsLegal_prbsAdvance {p : PrbsInst} (h : PrbsLegal p) : PrbsLegal (prbsAdvance p) := h

theorem prbsLegal_prbsValidated {p : PrbsInst} (h : PrbsLegal p) : PrbsLegal (prbsValidated p) := by
  unfold prbsValidated
  split
  · exact prbsLegal_prbsAdvance h
  · exact h

/-- A mismatch clears SCNT. After a match an SCNT of exactly LOCK_COUNT locks, and a greater one was at least LOCK_COUNT
before, where LOCKED was set already. -/
theorem prbsLegal_prbsTake {p : PrbsInst} (h : PrbsLegal p) (b : Bool) : PrbsLegal (prbsTake p b) := by
  unfold prbsTake
  split
  · exact fun hcount => absurd hcount (show ¬ lockCount ≤ (0#8).toNat by decide)
  · intro (hcount : lockCount ≤ (p.scnt + 1#8).toNat)
    show (p.locked || (p.scnt + 1#8).toNat == lockCount) = true
    rw [Bool.or_eq_true, beq_iff_eq]
    rcases Nat.eq_or_lt_of_le hcount with heq | hlt
    · exact .inr heq.symm
    · refine .inl (h ?_)
      rw [BitVec.toNat_add] at hlt
      have hmod := Nat.mod_le (p.scnt.toNat + 1) (2 ^ 8)
      exact Nat.le_of_lt_succ (Nat.lt_of_lt_of_le hlt hmod)

/-! ### Buffers -/

theorem bufferLegal_writeByte {size a : Nat} {m : Memory} (h : BufferLegal size m) (ha : a < size) (v : Byte) :
    BufferLegal size (writeByte m a v) :=
  ⟨writeByte_wf m a v h.1, writeByte_bound m a size v ha h.2⟩

end Sys2Proof.Machine
end

section
/-! PROOFS. Every step keeps a state well-formed: each command's effect does when its checks pass, a fault does because
its CMD word is not 0, and the reset input gives the power-on state. -/

namespace Sys2Proof.Machine

/-- What a length check that passes says of ARG. -/
theorem argCheck_passed {p : Prop} [Decidable p] {cs : List (Bool × Cause)} (hc : ∀ c ∈ cs, c.1 = true)
    (hmem : argCheck (decide p) ∈ cs) : p :=
  of_decide_eq_true (hc _ hmem)

section
variable {s : State} (h : Inv s)
include h

theorem Inv.crAt_legal {k : Nat} (hk : k < s.cr.length) : CrLegal s.cfg.sps (s.crAt k) := h.cr.2 _ (getD_mem _ hk)

theorem Inv.prbsAt_legal {k : Nat} (hk : k < s.prbs.length) : PrbsLegal (s.prbsAt k) := h.prbs.2 _ (getD_mem _ hk)

theorem Inv.slotAt_legal {k : Nat} (hk : k < s.pat.length) : SlotLegal s.cfg.pmax (s.slotAt k) :=
  h.pat.2 _ (getD_mem _ hk)

/-- CTRL.RSTALL clears every entry of every bank as the RESET of its unit does (40_control.md R142). -/
theorem Inv.clearStreams : Inv s.clearStreams where
  cfg := h.cfg
  fir := by simpa [FirShape, Function.comp_def] using h.fir
  iir := by simpa [IirShape, Function.comp_def] using h.iir
  pwm := (List.length_map ..).trans h.pwm
  cr := ⟨(List.length_map ..).trans h.cr.1, List.forall_mem_map.mpr fun c hc => crLegal_clear (h.cr.2 c hc)⟩
  prbs := ⟨(List.length_map ..).trans h.prbs.1, List.forall_mem_map.mpr fun p _ => prbsLegal_clear p⟩
  pat := h.pat
  dcr := (List.length_map ..).trans h.dcr
  ng := (List.length_map ..).trans h.ng
  inbuf := h.inbuf
  outbuf := h.outbuf
  record := h.record

/-- The reset input gives the power-on state of the same parameters (70_reset_and_hazards.md R360). -/
theorem Inv.powerOnReset : Inv s.powerOnReset := { powerOn_inv s.cfg h.cfg with }

/-- The output of a puncture run lies in the buffer, because nout is at most PBUF_BYTES (46_puncture.md R278). -/
theorem Inv.punctRun_legal {slot nin nout : Nat} (hout : nout ≤ s.cfg.pbufBytes) :
    BufferLegal s.cfg.pbufBytes (punctRun s slot nin nout).2 :=
  punctLoop_legal _ _ _ (Nat.mul_le_mul_left 8 hout) _ _ _ _ _ h.outbuf

/-- So does that of a depuncture run (46_puncture.md R279). -/
theorem Inv.depunctRun_legal {slot nbits nout : Nat} (hout : nout ≤ s.cfg.pbufBytes) :
    BufferLegal s.cfg.pbufBytes (depunctRun s slot nbits nout).2.2 :=
  depunctLoop_legal _ _ _ _ _ _ _ _ (Nat.mul_le_mul_left 8 hout) h.outbuf

/-- A command keeps a state well-formed if its effect does when every check passes, and its CMD word, which a fault
records, is not 0. -/
theorem Inv.of_guarded {i : Instr} {cs : List (Bool × Cause)} {e t : State} (hcmd : (encode i).cmd ≠ 0#32)
    (he : (∀ c ∈ cs, c.1 = true) → Inv e) (ht : guarded i cs s e = .next t) : Inv t := by
  rcases guarded_cases ht with ⟨hpass, rfl⟩ | ⟨cause, -, rfl⟩
  · exact he ((firstFailing_eq_none cs).mp hpass)
  · exact h.takeFault cause _ hcmd

/-- A command with a CMD word other than 0 keeps a state well-formed. In the order of the cases: commands without
checks, the other reads, then each unit's writes. -/
theorem Inv.of_exec {i : Instr} {t : State} (hcmd : (encode i).cmd ≠ 0#32) (ht : exec i s = .next t) :
    Inv t := by
  cases i with
  | ctrlNop | ctrlRdstatus | ctrlRdid | ctrlRdfcmd | ctrlRdfarg | golayCsum | golayEnc | golayDetect | golayDecode
  | convNeg | convS16tou12 | convS16tou8 | convU12tos16 | convU8tos16 =>
    cases ht
    exact h.setRes _
  | ctrlRstall =>
    cases ht
    exact h.clearStreams.setRes _
  | ctrlClrerr =>
    cases ht
    exact h.clearFault.setRes _
  | ctrlRdparam | firRdtap | firRdhist | firRdn | iirRdnum | iirRdden | iirRdhist | iirRdn | pwmRdcoef | pwmRdstate
  | crGetsp | crRdenergy | crRdcount | crRdcursor | crRdprev | prbsRdstate | puncRdin | puncRdout | puncRdpat
  | puncRdplen | dcrRdalpha | dcrRdstate | ngRdcfg | ngRdstate => exact h.of_guarded hcmd (fun _ => h.setRes _) ht
  | firReset k | firSettap k | firStep k | firStepf k =>
    exact h.of_guarded hcmd (fun _ => (h.setFir k _ (by simp)).setRes _) ht
  | iirReset k | iirSetnum k | iirSetden k | iirStep k | iirStepf k =>
    exact h.of_guarded hcmd (fun _ => (h.setIir k _ (by simp)).setRes _) ht
  | pwmReset k | pwmStep k => exact h.of_guarded hcmd (fun _ => (h.setPwm k _).setRes _) ht
  | crReset k => exact h.of_guarded hcmd (fun _ => (h.setCr k _ fun hk => crLegal_clear (h.crAt_legal hk)).setRes _) ht
  | crSample k =>
    exact h.of_guarded hcmd (fun _ => (h.setCr k _ fun hk => crLegal_crTake (h.crAt_legal hk) _).setRes _) ht
  | crUpdate k =>
    exact h.of_guarded hcmd (fun _ => (h.setCr k _ fun hk => crLegal_crUpdated (h.crAt_legal hk)).setRes _) ht
  | prbsReset k => exact h.of_guarded hcmd (fun _ => (h.setPrbs k _ fun _ => prbsLegal_clear _).setRes _) ht
  | prbsGen k =>
    exact h.of_guarded hcmd (fun _ => (h.setPrbs k _ fun hk => prbsLegal_prbsAdvance (h.prbsAt_legal hk)).setRes _) ht
  | prbsSync k =>
    exact h.of_guarded hcmd (fun _ => (h.setPrbs k _ fun hk => prbsLegal_prbsTake (h.prbsAt_legal hk) _).setRes _) ht
  | prbsValidate k =>
    exact h.of_guarded hcmd (fun _ => (h.setPrbs k _ fun hk => prbsLegal_prbsValidated (h.prbsAt_legal hk)).setRes _) ht
  | puncWrin n =>
    refine h.of_guarded hcmd (fun hc => (h.setInbuf _ (bufferLegal_writeByte h.inbuf ?_ _)).setRes _) ht
    simpa using hc
  | puncWrout n =>
    refine h.of_guarded hcmd (fun hc => (h.setOutbuf _ (bufferLegal_writeByte h.outbuf ?_ _)).setRes _) ht
    simpa using hc
  | puncSetpat slot =>
    refine h.of_guarded hcmd (fun _ => (h.setSlot slot _ fun hk => ?_).setRes _) ht
    obtain ⟨hbits, hplen⟩ := h.slotAt_legal hk
    exact ⟨List.length_set.trans hbits, hplen⟩
  | puncSetplen slot arg =>
    refine h.of_guarded hcmd (fun hc =>
      (h.setSlot slot { s.slotAt slot with plen := argLen arg } fun hk => ?_).setRes _) ht
    obtain ⟨-, hlen⟩ := argCheck_passed hc (List.mem_cons_of_mem _ List.mem_cons_self)
    exact ⟨(h.slotAt_legal hk).1, hlen⟩
  | puncPunct =>
    refine h.of_guarded hcmd (fun hc => (h.setOutbuf _ (h.punctRun_legal ?_)).setRes _) ht
    exact (argCheck_passed hc (List.mem_cons_of_mem _ List.mem_cons_self)).2
  | puncDepunct =>
    refine h.of_guarded hcmd (fun hc => (h.setOutbuf _ (h.depunctRun_legal ?_)).setRes _) ht
    exact (argCheck_passed hc (List.mem_cons_of_mem _ List.mem_cons_self)).2
  | dcrReset k | dcrSetalpha k | dcrStep k => exact h.of_guarded hcmd (fun _ => (h.setDcr k _).setRes _) ht
  | ngReset k | ngSetcfg k | ngStep k => exact h.of_guarded hcmd (fun _ => (h.setNg k _).setRes _) ht

/-- A decoded command keeps a state well-formed. The CMD word 0 is CTRL.NOP, which never faults; any other can stand in
FAULTCMD. -/
theorem Inv.of_exec_decoded {c : Command} {i : Instr} {t : State} (hd : decode c = .ok i)
    (ht : exec i s = .next t) : Inv t := by
  by_cases hzero : c.cmd = 0#32
  · obtain rfl : Instr.ctrlNop c.arg = i := Except.ok.inj ((decode_of_cmd_zero hzero).symm.trans hd)
    cases ht
    exact h.setRes _
  · exact h.of_exec (by rwa [encode_cmd_of_decode hd]) ht

/-- A rejected command keeps a state well-formed: its CMD word is not 0, since 0 decodes. -/
theorem Inv.takeFault_rejected {c : Command} {e : DecodeError} (hd : decode c = .error e) (cause : Cause) :
    Inv (s.takeFault cause c) := by
  refine h.takeFault cause c fun hzero => ?_
  rw [decode_of_cmd_zero hzero] at hd
  cases hd

end

/-- Settles O9, by cases on the event at the port: none, the reset input, a command that decodes, a command that is
rejected. -/
theorem stepKeepsWellFormedness : Obligations.StepKeepsWellFormedness := by
  intro s t h ht
  rw [step] at ht
  rcases portStep_cases s with ⟨-, hp⟩ | ⟨-, -, hp⟩ | ⟨c, -, i, -, hd, hp⟩ | ⟨c, -, e, -, hd, hp⟩
  all_goals rw [hp] at ht
  · cases ht
    exact h
  · cases ht
    exact h.takeEvent.powerOnReset
  · exact h.takeEvent.of_exec_decoded hd ht
  · cases ht
    exact h.takeEvent.takeFault_rejected hd _

end Sys2Proof.Machine
end

section
/-! PROOFS. A fault and an encoding in the spec's own terms (60_exceptions.md R331, 30_encoding.md R115): the model's
fault is the spec's, and every row of the opcode table has its "Encoding" line. -/

namespace Sys2Proof.Spec

open Sys2Proof.Machine

/-! ### Faults -/

/-- Taking a fault is the effect 60_exceptions.md R331 and R333 give it. -/
theorem takeFault_eq_faulted (s : State) (c : Cause) (w : Command) : s.takeFault c w = faulted (causeCode c) w s := by
  cases h : errFlag s.status
  · rw [takeFault_of_clear h, faulted, if_neg (by simpa [errFlag] using h)]
    rfl
  · rw [takeFault_of_err h, faulted, if_pos (show s.status.getLsbD 0 = true from h)]
    rfl

/-- A command whose first failing check has the cause `c` faults with its code. -/
theorem faults_of_firstFailing {i : Instr} {cs : List (Bool × Cause)} {s e : State} {c : Cause}
    (hexec : exec i s = guarded i cs s e) (hfail : firstFailing cs = some c) : Faults i (causeCode c) s := by
  rw [Faults, hexec, guarded_of_fail hfail, takeFault_eq_faulted]

/-- An index at its bound or above is BAD_INDEX, if no check comes before it. -/
theorem firstFailing_idxCheck {n bound : Nat} (h : bound ≤ n) (cs : List (Bool × Cause)) :
    firstFailing (idxCheck n bound :: cs) = some .badIndex := by
  simp [idxCheck, Nat.not_lt.mpr h]

/-! ### Encodings -/

/-- The fields that a command's row fixes at 0 are 0. -/
theorem fields_fixed_zero (i : Instr) :
    (usesInst i.fields.unit i.fields.op = false → i.fields.inst = 0) ∧
    (usesIdx i.fields.unit i.fields.op = false → i.fields.idx = 0) := by
  cases i <;> simp [Instr.fields, usesInst, usesIdx, idxRange]

/-- A command's OP is assigned in its UNIT. -/
theorem fields_op_lt_opsOf (i : Instr) : i.fields.op < opsOf i.fields.unit := by
  cases i <;> simp [Instr.fields, opsOf]

/-- The decoder answers ILLEGAL_OPCODE only for an OP that is not assigned (30_encoding.md R115). -/
theorem opsOf_le_of_illegalOpcode {f : Fields} {arg : Word} (h : decodeFields f arg = .error .illegalOpcode) :
    opsOf f.unit ≤ f.op := by
  obtain ⟨unit, op, inst, idx, rsv⟩ := f
  simp only [decodeFields, decodeCtrl, decodeFir, decodeIir, decodePwm, decodeCr, decodePrbs, decodeGolay, decodePunc,
    decodeDcr, decodeNg, decodeConv, plain, withInst, withIdx, withBoth] at h
  split at h
  case h_12 =>
    simp only [imp_false] at *
    have hunit : 11 ≤ unit := by omega
    simp [opsOf, hunit]
  all_goals
    split at h <;> simp only [ifZero_error, reduceCtorEq, and_false] at h
    simp only [imp_false, opsOf, List.getD_cons_zero, List.getD_cons_succ] at *
    omega

/-- A word of an assigned UNIT.OP in which a field that must be 0 is not 0 is rejected with RESERVED_FIELD
(30_encoding.md R115): it is no command's, and its OP is assigned. -/
theorem decodeFields_reservedField {f : Fields} (arg : Word) (hop : f.op < opsOf f.unit)
    (hf : f.rsv ≠ 0 ∨ (usesInst f.unit f.op = false ∧ f.inst ≠ 0) ∨ (usesIdx f.unit f.op = false ∧ f.idx ≠ 0)) :
    decodeFields f arg = .error .reservedField := by
  match h : decodeFields f arg with
  | .ok i =>
    obtain rfl := fields_of_decodeFields h
    obtain ⟨hinst, hidx⟩ := fields_fixed_zero i
    rcases hf with hrsv | ⟨hno, hne⟩ | ⟨hno, hne⟩
    · exact absurd (fields_rsv i) hrsv
    · exact absurd (hinst hno) hne
    · exact absurd (hidx hno) hne
  | .error .illegalOpcode => exact absurd (opsOf_le_of_illegalOpcode h) (Nat.not_le.mpr hop)
  | .error .reservedField => rfl

/-- UNIT and OP read from the high byte of a command word (30_encoding.md R111). -/
theorem fieldsOf_unit_op {cmd : Word} {unit op : Nat} (h : cmd.toNat / 2 ^ 24 = unit * 16 + op) (hop : op < 16) :
    (fieldsOf cmd).unit = unit ∧ (fieldsOf cmd).op = op := by
  have := cmd.isLt
  simp only [fieldsOf, bits]
  omega

/-- Every command has the encoding of its row, and a nonzero fixed field faults (30_encoding.md R111, R114, R115). -/
theorem encodes_fields (i : Instr) (s : State) :
    Encodes i i.fields.unit i.fields.op i.fields.inst i.fields.idx s := by
  refine ⟨?_, fun c hword hbad => ?_⟩
  · rw [encode, pack, fields_rsv, Nat.add_zero]
  · obtain ⟨hunit, hop⟩ := fieldsOf_unit_op hword (Nat.lt_trans (fields_op_lt i) (by decide))
    have hdec : decode c = .error .reservedField := by
      refine decodeFields_reservedField c.arg ?_ ?_ <;> rw [hunit, hop]
      · exact fields_op_lt_opsOf i
      · simpa [fieldsOf, bits] using hbad
    rw [runCommand, hdec]
    exact congrArg _ (takeFault_eq_faulted s .reservedField c)

end Sys2Proof.Spec
end

section
/-! PROOFS. Every read (20_memory.md R98) answers a value that does not depend on RES, and writes it to RES alone. -/

namespace Sys2Proof.Machine

open Sys2Proof.Spec

section
variable {s : State} {i : Instr}

/-- A command that passes the checks of 60_exceptions.md R334 has an INST below the count of its unit. -/
theorem inst_lt_of_check (hc : check s i = none) (hu : usesInst i.fields.unit i.fields.op = true) :
    i.fields.inst < countOf s.cfg i.fields.unit := by
  by_contra hlt
  have hbad : badInstance s i.fields = true := by simp [badInstance, hu, Nat.not_lt.mp hlt]
  simp [check, hbad] at hc

/-- And an IDX in the range of its row. -/
theorem idx_range_of_check (hc : check s i = none) {lo hi : Nat}
    (hr : idxRange s.cfg i.fields.unit i.fields.op i.fields.inst = some (lo, hi)) :
    lo ≤ i.fields.idx ∧ i.fields.idx < hi := by
  by_contra hout
  have hbad : badIndex s i.fields = true := by simp only [badIndex, hr, decide_eq_true_eq]; omega
  cases hi : badInstance s i.fields <;> simp [check, hbad, hi] at hc

variable {e : State}

/-- A command whose only check is of INST has its effect. -/
theorem guarded_inst_of_check (hc : check s i = none) (hu : usesInst i.fields.unit i.fields.op = true) :
    guarded i [instCheck i.fields.inst (countOf s.cfg i.fields.unit)] s e = .next e :=
  guarded_of_pass (by simpa using inst_lt_of_check hc hu)

/-- A command whose only check is of IDX has its effect. -/
theorem guarded_idx_of_check (hc : check s i = none) {lo hi : Nat}
    (hr : idxRange s.cfg i.fields.unit i.fields.op i.fields.inst = some (lo, hi)) :
    guarded i [idxCheck i.fields.idx hi] s e = .next e :=
  guarded_of_pass (by simpa using (idx_range_of_check hc hr).2)

/-- A command whose checks are of INST and of IDX has its effect. -/
theorem guarded_inst_idx_of_check (hc : check s i = none) (hu : usesInst i.fields.unit i.fields.op = true)
    {lo hi : Nat} (hr : idxRange s.cfg i.fields.unit i.fields.op i.fields.inst = some (lo, hi)) :
    guarded i [instCheck i.fields.inst (countOf s.cfg i.fields.unit), idxCheck i.fields.idx hi] s e = .next e :=
  guarded_of_pass (by simpa using ⟨inst_lt_of_check hc hu, (idx_range_of_check hc hr).2⟩)

/-- IIR.RDHIST, whose index starts at 1, has its effect (41_fir_iir.md R178). -/
theorem guarded_iirHist_of_check (hc : check s i = none) (hu : usesInst i.fields.unit i.fields.op = true)
    {lo hi : Nat} (hlo : 0 < lo) (hr : idxRange s.cfg i.fields.unit i.fields.op i.fields.inst = some (lo, hi)) :
    guarded i [instCheck i.fields.inst (countOf s.cfg i.fields.unit), iirHistCheck i.fields.idx hi] s e = .next e := by
  obtain ⟨hfirst, hlast⟩ := idx_range_of_check hc hr
  have hidx : i.fields.idx ≠ 0 := Nat.ne_of_gt (Nat.lt_of_lt_of_le hlo hfirst)
  exact guarded_of_pass (by simpa [iirHistCheck] using ⟨inst_lt_of_check hc hu, hidx, hlast⟩)

end

/-- A read answers its value, which no write to RES changes. In the order of the cases: no check, a check of INST, of
IDX, of both, and IIR.RDHIST, whose index starts at 1. -/
theorem exec_of_isRead {i : Instr} (h : isRead i = true) :
    ∃ v : State → Word, (∀ s, check s i = none → exec i s = .next (s.setRes (v s))) ∧ ∀ s r, v (s.setRes r) = v s := by
  cases i with
  | ctrlRdstatus | ctrlRdid | ctrlRdfcmd | ctrlRdfarg => exact ⟨_, fun _ _ => rfl, fun _ _ => rfl⟩
  | firRdn | iirRdn | crGetsp | crRdcount | crRdcursor | crRdprev | prbsRdstate | puncRdplen | dcrRdalpha =>
    exact ⟨_, fun _ hc => guarded_inst_of_check hc rfl, fun _ _ => rfl⟩
  | ctrlRdparam | puncRdin | puncRdout => exact ⟨_, fun _ hc => guarded_idx_of_check hc rfl, fun _ _ => rfl⟩
  | firRdtap | firRdhist | iirRdnum | iirRdden | pwmRdcoef | pwmRdstate | crRdenergy | puncRdpat | dcrRdstate
  | ngRdcfg | ngRdstate => exact ⟨_, fun _ hc => guarded_inst_idx_of_check hc rfl rfl, fun _ _ => rfl⟩
  | iirRdhist => exact ⟨_, fun _ hc => guarded_iirHist_of_check hc rfl Nat.one_pos rfl, fun _ _ => rfl⟩
  | _ => simp [isRead, Instr.fields] at h

/-- Settles O16: a read passes again after its own write to RES, and its value is the same. -/
theorem readCommandsChangeOnlyRes : Obligations.ReadCommandsChangeOnlyRes := by
  intro s i hread hc
  obtain ⟨v, hexec, hv⟩ := exec_of_isRead hread
  refine ⟨v s, hexec s hc, ?_⟩
  have hagain := hexec (s.setRes (v s)) hc
  rwa [hv] at hagain

end Sys2Proof.Machine
end

section
/-! PROOFS. The PUNC buffer commands (46_puncture.md R270 to R273) read and write one byte, and a byte carries its eight
stream bits with the most significant first (20_memory.md R93). -/

namespace Sys2Proof.Machine

open Sys2Proof.Spec

/-- The model's access of a stream bit is the spec's. -/
theorem getBit_eq_streamBit (m : Memory) (i : Nat) : getBit m i = streamBit m i := getBit_eq_getLsbD m i

/-- A stream bit set reads back, and every other one reads as before. -/
theorem streamBit_setBit {m : Memory} (h : m.wf) (i j : Nat) (b : Bool) :
    streamBit (setBit m i b) j = if j = i then b else streamBit m j := by
  simpa only [getBit_eq_streamBit] using getBit_setBit m i j b h

/-- The stream bits of a byte written, its bit 7 first. -/
theorem streamBit_writeByte {m : Memory} (h : m.wf) (n : Nat) (v : Byte) {i : Nat} (hi : i < 8) :
    streamBit (writeByte m n v) (8 * n + i) = v.getLsbD (7 - i) := by
  have hbyte : (8 * n + i) / 8 = n := by omega
  have hbit : (8 * n + i) % 8 = i := by omega
  rw [streamBit, hbyte, hbit, readByte_writeByte m n n v h, if_pos rfl]

section
variable {s : State} {n : Nat} (arg : Word)

theorem exec_puncWrin (hn : n < s.cfg.pbufBytes) :
    exec (.puncWrin n arg) s = .next ((s.setInbuf (writeByte s.inbuf n (argByte arg))).setRes resNone) :=
  guarded_of_pass (by simpa using hn)

theorem exec_puncRdin (hn : n < s.cfg.pbufBytes) :
    exec (.puncRdin n arg) s = .next (s.setRes (resNat (readByte s.inbuf n).toNat)) := by
  rw [resNat, BitVec.ofNat_toNat]
  exact guarded_of_pass (by simpa using hn)

theorem exec_puncWrout (hn : n < s.cfg.pbufBytes) :
    exec (.puncWrout n arg) s = .next ((s.setOutbuf (writeByte s.outbuf n (argByte arg))).setRes resNone) :=
  guarded_of_pass (by simpa using hn)

theorem exec_puncRdout (hn : n < s.cfg.pbufBytes) :
    exec (.puncRdout n arg) s = .next (s.setRes (resNat (readByte s.outbuf n).toNat)) := by
  rw [resNat, BitVec.ofNat_toNat]
  exact guarded_of_pass (by simpa using hn)

end

/-- Settles O47: below PBUF_BYTES each command has its effect, and from there on its one check fails. -/
theorem bufferBytesAreReadAndWritten : Obligations.BufferBytesAreReadAndWritten := by
  intro s n arg hin hout
  refine ⟨fun hn => ⟨⟨_, exec_puncWrin arg hn, fun a => readByte_writeByte _ _ _ _ hin⟩, exec_puncRdin arg hn,
      ⟨_, exec_puncWrout arg hn, fun a => readByte_writeByte _ _ _ _ hout⟩, exec_puncRdout arg hn⟩,
    fun hn => ?_, getBit_eq_getLsbD, fun m i j b hm => streamBit_setBit hm i j b, fun t i hn ht hi => ?_,
    encodes_fields (.puncWrin n arg) s, encodes_fields (.puncRdin n arg) s, encodes_fields (.puncWrout n arg) s,
    encodes_fields (.puncRdout n arg) s⟩
  · have hfail := firstFailing_idxCheck hn []
    exact ⟨faults_of_firstFailing rfl hfail, faults_of_firstFailing rfl hfail, faults_of_firstFailing rfl hfail,
      faults_of_firstFailing rfl hfail⟩
  · rw [exec_puncWrin arg hn] at ht
    cases ht
    rw [State.setRes_inbuf, State.setInbuf_inbuf, streamBit_writeByte hin n _ hi, argByte, BitVec.getLsbD_setWidth]
    simp [show 7 - i < 8 by omega]

end Sys2Proof.Machine
end

section
/-! PROOFS. The decoder and the encoder are inverse to each other, the decoder rejects exactly the reserved encodings
(30_encoding.md R110 to R116), and a rejected command faults under its name (60_exceptions.md R331). -/

namespace Sys2Proof

open Sys2Proof.Machine Sys2Proof.Spec

/-! ### Encoding, then decoding -/

/-- Each command's own fields select its row of 30_encoding.md R114, and meet what the row fixes. -/
theorem decodeFields_fields (i : Instr) : decodeFields i.fields i.arg = .ok i := by cases i <;> rfl

/-- Settles O2: packing keeps fields that are in range, and a command's fields decode to it. -/
theorem decodeOfEncodeIsTheCommand : Obligations.DecodeOfEncodeIsTheCommand := by
  intro i hwf
  rw [decode, fieldsOf_encode i hwf]
  exact decodeFields_fields i

/-! ### Decoding, then encoding -/

/-- A command whose fields are in range is well-formed. -/
theorem wf_of_fields_inRange (i : Instr) (h : i.fields.InRange) : i.wf = true := by
  obtain ⟨-, -, hinst, hidx, -⟩ := h
  cases i <;> simp_all [Instr.wf, Instr.fields, instFits, idxFits]

/-- The row that a command's fields select takes ARG whole (30_encoding.md R110). -/
theorem decodeFields_fields_arg (i : Instr) (arg : Word) : ∃ j, decodeFields i.fields arg = .ok j ∧ j.arg = arg := by
  cases i <;> exact ⟨_, rfl, rfl⟩

theorem arg_of_decode {c : Command} {i : Instr} (h : decode c = .ok i) : i.arg = c.arg := by
  obtain ⟨j, hj, harg⟩ := decodeFields_fields_arg i c.arg
  rw [fields_of_decodeFields h] at hj
  cases h.symm.trans hj
  exact harg

/-- Settles O3: the decoder loses neither a field of CMD nor a bit of ARG. -/
theorem encodeOfDecodeIsTheWords : Obligations.EncodeOfDecodeIsTheWords := by
  intro c i h
  constructor
  · exact wf_of_fields_inRange i (fields_of_decodeFields h ▸ fieldsOf_inRange c.cmd)
  · show (⟨(encode i).cmd, i.arg⟩ : Command) = c
    rw [encode_cmd_of_decode h, arg_of_decode h]

/-! ### The reserved encodings -/

/-- The decoder answers RESERVED_FIELD exactly in a row of 30_encoding.md R114, for a field that the row fixes at 0 and
that is not 0 (R115): in each row that is the one check it makes. -/
theorem decodeFields_reservedField_iff (f : Fields) (arg : Word) :
    decodeFields f arg = .error .reservedField ↔ f.op < opsOf f.unit ∧
      (f.rsv ≠ 0 ∨ (usesInst f.unit f.op = false ∧ f.inst ≠ 0) ∨ (usesIdx f.unit f.op = false ∧ f.idx ≠ 0)) := by
  refine ⟨fun h => ?_, fun ⟨hop, hfixed⟩ => decodeFields_reservedField arg hop hfixed⟩
  obtain ⟨unit, op, inst, idx, rsv⟩ := f
  simp only [decodeFields, decodeCtrl, decodeFir, decodeIir, decodePwm, decodeCr, decodePrbs, decodeGolay, decodePunc,
    decodeDcr, decodeNg, decodeConv, plain, withInst, withIdx, withBoth] at h
  split at h
  case h_12 => cases h
  all_goals split at h <;> simp only [ifZero_error, Except.error.injEq, reduceCtorEq, and_true] at h
  all_goals simpa [opsOf, usesInst, usesIdx, idxRange, or_iff_not_imp_left] using h

/-- Every other answer, a command or RESERVED_FIELD, comes from a row, and so has an assigned OP. -/
theorem decodeFields_illegalOpcode_iff (f : Fields) (arg : Word) :
    decodeFields f arg = .error .illegalOpcode ↔ opsOf f.unit ≤ f.op := by
  refine ⟨opsOf_le_of_illegalOpcode, fun hop => ?_⟩
  match h : decodeFields f arg with
  | .ok i =>
    obtain rfl := fields_of_decodeFields h
    exact absurd (fields_op_lt_opsOf i) (Nat.not_lt.mpr hop)
  | .error .reservedField => exact absurd ((decodeFields_reservedField_iff f arg).mp h).1 (Nat.not_lt.mpr hop)
  | .error .illegalOpcode => rfl

/-- The fields of a command word as quotients and remainders (30_encoding.md R111). -/
theorem fieldsOf_eq (w : Word) :
    fieldsOf w = ⟨w.toNat / 2 ^ 28, w.toNat / 2 ^ 24 % 16, w.toNat / 2 ^ 20 % 16, w.toNat / 2 ^ 8 % 4096,
      w.toNat % 256⟩ := by
  have := w.isLt
  simp only [fieldsOf, bits, Fields.mk.injEq]
  omega

/-- Settles O4: both errors of the decoder, read off the fields of CMD. -/
theorem decoderRejectsExactlyTheReservedEncodings : Obligations.DecoderRejectsExactlyTheReservedEncodings := by
  intro c
  rw [decode, fieldsOf_eq]
  exact ⟨decodeFields_illegalOpcode_iff _ _, decodeFields_reservedField_iff _ _⟩

/-- Settles O1: each example word is read by its row. -/
theorem decoderReadsTheExampleWords : Obligations.DecoderReadsTheExampleWords :=
  ⟨rfl, rfl, rfl, rfl, rfl, rfl, rfl, rfl, rfl⟩

end Sys2Proof

namespace Sys2Proof.Machine

open Sys2Proof.Spec

/-! ### A step on a command -/

/-- A step with a command at the port runs it on the state with that event taken (40_control.md R140, log 4). -/
theorem step_command {s : State} {c : Command} {rest : List HostEvent} (h : s.issue = .command c :: rest) :
    step s = runCommand c { s with issue := rest } := by
  rw [step, portStep, h, State.takeEvent, h]
  rfl

/-- A rejected command faults with the code of the decoder's error (30_encoding.md R115). -/
theorem runCommand_of_error {c : Command} {e : DecodeError} (h : decode c = .error e) (s : State) :
    runCommand c s = .next (faulted (causeCode (decodeCause e)) c s) := by
  rw [runCommand, h, ← takeFault_eq_faulted]
  rfl

/-- Settles O6: the codes of the two errors are 1 and 2. -/
theorem stepFaultsOnARejectedCommand : Obligations.StepFaultsOnARejectedCommand := by
  intro s c rest hissue
  rw [step_command hissue]
  exact ⟨fun h => runCommand_of_error h _, fun h => runCommand_of_error h _⟩

end Sys2Proof.Machine
end

section
/-! PROOFS. The checks that a meaning makes are checks 4 to 7 of 60_exceptions.md R334 in their order: a command that
fails one of them takes the fault of the first. -/

namespace Sys2Proof.Spec

open Sys2Proof.Machine

/-- Checks 4 to 7 of 60_exceptions.md R334 in their order, each with its cause. -/
def orderedChecks (s : State) (i : Instr) : List (Bool × Cause) :=
  [(!badInstance s i.fields, .badInstance), (!badIndex s i.fields, .badIndex),
   (!badArgument s i.fields (i.arg.toNat % 65536) (i.arg.toNat / 65536), .badArgument),
   (!badConfig s i.fields, .badConfig)]

/-- `check` answers the code of the first of them that fails. -/
theorem check_eq_firstFailing (s : State) (i : Instr) :
    check s i = (firstFailing (orderedChecks s i)).map causeCode := by
  unfold check orderedChecks
  generalize badInstance s i.fields = inst, badIndex s i.fields = idx, badConfig s i.fields = config,
    badArgument s i.fields _ _ = argument
  revert inst idx argument config
  decide

/-! ### Each check of a meaning, as 60_exceptions.md R332 words its cause -/

theorem instCheck_eq (k count : Nat) : instCheck k count = (!decide (count ≤ k), .badInstance) := by
  simp only [instCheck, ← Nat.not_le, decide_not]

theorem idxCheck_eq (n bound : Nat) : idxCheck n bound = (!decide (n < 0 ∨ bound ≤ n), .badIndex) := by
  have h : n < bound ↔ ¬ (n < 0 ∨ bound ≤ n) := by omega
  simp only [idxCheck, h, decide_not]

theorem iirHistCheck_eq (n len : Nat) : iirHistCheck n len = (!decide (n < 1 ∨ len ≤ n), .badIndex) := by
  have h : n ≠ 0 ∧ n < len ↔ ¬ (n < 1 ∨ len ≤ n) := by omega
  simp only [iirHistCheck, h, decide_not]

theorem argCheck_eq {p q : Prop} [Decidable p] [Decidable q] (h : p ↔ ¬ q) :
    argCheck (decide p) = (!decide q, .badArgument) := by
  simp only [argCheck, h, decide_not]

/-- PLEN of a slot that the bank does not have reads as 0 (log 12). -/
theorem configCheck_eq (s : State) (k : Nat) :
    configCheck s k = (!(((s.pat[k]?).map PatSlot.plen).getD 0 == 0), .badConfig) := by
  have hplen : (s.slotAt k).plen = ((s.pat[k]?).map PatSlot.plen).getD 0 := by
    rw [State.slotAt, List.getD_eq_getElem?_getD]
    cases s.pat[k]? <;> rfl
  rw [configCheck, hplen, decide_not, beq_eq_decide]

/-- Every meaning makes the checks of 60_exceptions.md R334: those that it leaves out cannot fail in its row. In the
order of the cases: no check, a check of INST, of IDX, of both, and those of ARG and of the slot. -/
theorem exec_orderedChecks (i : Instr) (s : State) :
    ∃ cs e, exec i s = guarded i cs s e ∧ firstFailing cs = firstFailing (orderedChecks s i) := by
  cases i with
  | ctrlNop | ctrlRstall | ctrlRdstatus | ctrlClrerr | ctrlRdid | ctrlRdfcmd | ctrlRdfarg | golayCsum | golayEnc
  | golayDetect | golayDecode | convNeg | convS16tou12 | convS16tou8 | convU12tos16 | convU8tos16 =>
    exact ⟨_, _, rfl, rfl⟩
  | firReset | firStep | firStepf | firRdn | iirReset | iirStep | iirStepf | iirRdn | pwmReset | pwmStep | crReset
  | crSample | crUpdate | crGetsp | crRdcount | crRdcursor | crRdprev | prbsReset | prbsGen | prbsSync | prbsValidate
  | prbsRdstate | puncRdplen | dcrReset | dcrSetalpha | dcrStep | dcrRdalpha | ngReset | ngStep =>
    exact ⟨_, _, rfl, by rw [instCheck_eq]; rfl⟩
  | ctrlRdparam | puncWrin | puncRdin | puncWrout | puncRdout => exact ⟨_, _, rfl, by rw [idxCheck_eq]; rfl⟩
  | firSettap | firRdtap | firRdhist | iirSetnum | iirSetden | iirRdnum | iirRdden | pwmRdcoef | pwmRdstate
  | crRdenergy | puncSetpat | puncRdpat | dcrRdstate | ngSetcfg | ngRdcfg | ngRdstate =>
    exact ⟨_, _, rfl, by rw [instCheck_eq, idxCheck_eq]; rfl⟩
  | iirRdhist => exact ⟨_, _, rfl, by rw [instCheck_eq, iirHistCheck_eq]; rfl⟩
  | puncSetplen slot arg =>
    have hlen : argLen arg ≠ 0 ∧ argLen arg ≤ s.cfg.pmax ↔ ¬ (argLen arg = 0 ∨ s.cfg.pmax < argLen arg) := by omega
    exact ⟨_, _, rfl, by rw [instCheck_eq, argCheck_eq hlen]; rfl⟩
  | puncPunct slot arg =>
    have hlen : argLo arg ≤ s.cfg.pbufBytes ∧ argHi arg ≤ s.cfg.pbufBytes ↔
        ¬ (s.cfg.pbufBytes < argLo arg ∨ s.cfg.pbufBytes < argHi arg) := by omega
    exact ⟨_, _, rfl, by rw [instCheck_eq, argCheck_eq hlen, configCheck_eq]; rfl⟩
  | puncDepunct slot arg =>
    have hlen : argLo arg ≤ 8 * s.cfg.pbufBytes ∧ argHi arg ≤ s.cfg.pbufBytes ↔
        ¬ (8 * s.cfg.pbufBytes < argLo arg ∨ s.cfg.pbufBytes < argHi arg) := by omega
    exact ⟨_, _, rfl, by rw [instCheck_eq, argCheck_eq hlen, configCheck_eq]; rfl⟩

/-- A command that fails a check faults with the code of the first that fails. -/
theorem faults_of_check {s : State} {i : Instr} {code : Nat} (h : check s i = some code) : Faults i code s := by
  obtain ⟨cs, e, hexec, hcs⟩ := exec_orderedChecks i s
  rw [check_eq_firstFailing, ← hcs, Option.map_eq_some_iff] at h
  obtain ⟨cause, hfail, rfl⟩ := h
  exact faults_of_firstFailing hexec hfail

/-- With ERR clear, a fault writes the record (60_exceptions.md R333). -/
theorem faulted_of_clear {s : State} (h : s.status.getLsbD 0 = false) (code : Nat) (w : Command) :
    faulted code w s =
      { s with res := 0#32, status := BitVec.ofNat 32 (code * 16 + 1), faultCmd := w.cmd, faultArg := w.arg } := by
  rw [faulted, h]
  rfl

end Sys2Proof.Spec
end

section
/-! PROOFS. The CTRL unit (40_control.md R140 to R148): a step runs the decoded command, and what each CTRL command
writes. -/

namespace Sys2Proof.Machine

open Sys2Proof.Spec

/-! ### One command -/

/-- Settles O5: with the command taken off the port, its words decode and the instruction runs. -/
theorem stepRunsTheDecodedCommand : Obligations.StepRunsTheDecodedCommand := by
  intro s c rest i hissue hdec
  rw [step_command hissue, runCommand, hdec]

section
variable (s : State) (arg : Word)

/-! ### The commands without a check of INST, IDX or ARG have one effect (40_control.md R141 to R148) -/

theorem exec_ctrlNop : exec (.ctrlNop arg) s = .next (s.setRes resNone) := rfl
theorem exec_ctrlRstall : exec (.ctrlRstall arg) s = .next (s.clearStreams.setRes resNone) := rfl
theorem exec_ctrlRdstatus : exec (.ctrlRdstatus arg) s = .next (s.setRes s.status) := rfl
theorem exec_ctrlClrerr : exec (.ctrlClrerr arg) s = .next (s.clearFault.setRes resNone) := rfl
theorem exec_ctrlRdid : exec (.ctrlRdid arg) s = .next (s.setRes coreId) := rfl
theorem exec_ctrlRdfcmd : exec (.ctrlRdfcmd arg) s = .next (s.setRes s.faultCmd) := rfl
theorem exec_ctrlRdfarg : exec (.ctrlRdfarg arg) s = .next (s.setRes s.faultArg) := rfl

end

/-! ### The reads -/

/-- Settles O17: the effect of each is one write to RES. -/
theorem ctrlReadsAnswerTheirRegister : Obligations.CtrlReadsAnswerTheirRegister := fun s arg =>
  ⟨exec_ctrlNop s arg, exec_ctrlRdstatus s arg, exec_ctrlRdid s arg, exec_ctrlRdfcmd s arg, exec_ctrlRdfarg s arg,
    encodes_fields (.ctrlNop arg) s, encodes_fields (.ctrlRdstatus arg) s, encodes_fields (.ctrlRdid arg) s,
    encodes_fields (.ctrlRdfcmd arg) s, encodes_fields (.ctrlRdfarg arg) s⟩

/-- CTRL.RDPARAM on an index of the parameter list. -/
theorem exec_ctrlRdparam (s : State) (arg : Word) {n p : Nat} (h : (paramList s.cfg)[n]? = some p) :
    exec (.ctrlRdparam n arg) s = .next (s.setRes (resNat p)) := by
  have hn : n < 12 := lt_of_getElem? h
  rw [← getD_of_getElem? (d := 0) h]
  exact guarded_of_pass (by simpa using hn)

/-- Settles O18: the twelve parameters are read in their order, and from index 12 on the one check fails. -/
theorem ctrlRdparamReadsTheParameters : Obligations.CtrlRdparamReadsTheParameters :=
  ⟨⟨_, rfl, rfl⟩, fun s n arg => ⟨fun _ hp => exec_ctrlRdparam s arg hp,
    fun hn => faults_of_firstFailing rfl (firstFailing_idxCheck hn []), encodes_fields (.ctrlRdparam n arg) s⟩⟩

/-! ### CTRL.CLRERR -/

/-- Settles O19: the record is cleared, ERR with it, and so the next command that fails a check writes the record. -/
theorem ctrlClrerrClearsAndRearmsTheRecord : Obligations.CtrlClrerrClearsAndRearmsTheRecord := by
  intro s arg
  refine ⟨exec_ctrlClrerr s arg, encodes_fields (.ctrlClrerr arg) s, fun i t ht code hcheck => ?_⟩
  have hclear : t.status.getLsbD 0 = false := by
    rw [exec_ctrlClrerr] at ht
    cases ht
    simp
  rw [faults_of_check hcheck, faulted_of_clear hclear]

/-! ### CTRL.RSTALL -/

/-- FIR.RESET's effect: as many history words as before, all of them 0 (41_fir_iir.md R161). -/
theorem FirInst.clear_eq (f : FirInst) : f.clear = ⟨f.taps, List.replicate f.hist.length 0#32⟩ := by
  rw [FirInst.clear, List.map_const']

/-- IIR.RESET's effect (41_fir_iir.md R171). -/
theorem IirInst.clear_eq (f : IirInst) : f.clear = ⟨f.num, f.den, List.replicate f.w.length 0#32⟩ := by
  rw [IirInst.clear, List.map_const']

/-- CR.RESET's effect: as many bins as before, all of them 0 (43_clock_recovery.md R200). -/
theorem CrInst.clear_eq (c : CrInst) :
    c.clear = ⟨List.replicate c.energy.length 0#32, 0#16, 0, 0#32, 0⟩ := by
  rw [CrInst.clear, List.map_const']

/-- An entry of a bank that is cleared whole, when clearing one entry gives `g`. -/
theorem getElem?_map_of_eq {α β : Type} {f g : α → β} (h : ∀ a, f a = g a) (l : List α) (k : Nat) :
    (l.map f)[k]? = (l[k]?).map g := by
  rw [List.getElem?_map, funext h]

/-- Settles O20: CTRL.RSTALL clears every entry of every bank as the RESET of its unit does, and writes nothing else but
RES. -/
theorem ctrlRstallResetsEveryStream : Obligations.CtrlRstallResetsEveryStream := fun s arg =>
  ⟨s.clearStreams.setRes resNone, exec_ctrlRstall s arg, rfl,
    getElem?_map_of_eq FirInst.clear_eq s.fir, getElem?_map_of_eq IirInst.clear_eq s.iir,
    getElem?_map_of_eq (fun _ => rfl) s.pwm, getElem?_map_of_eq CrInst.clear_eq s.cr,
    getElem?_map_of_eq (fun _ => rfl) s.prbs, getElem?_map_of_eq (fun _ => rfl) s.dcr,
    getElem?_map_of_eq (fun _ => rfl) s.ng, encodes_fields (.ctrlRstall arg) s⟩

end Sys2Proof.Machine
end

section
/-! PROOFS. The two checks of the banked commands, of INST and then of IDX (60_exceptions.md R334): a command that meets
both has its effect, and one that fails INST, or else IDX, faults with BAD_INSTANCE or BAD_INDEX. -/

namespace Sys2Proof.Machine

open Sys2Proof.Spec

section
variable {i : Instr} {s e : State} {k n count bound : Nat}

/-- A command whose only check is of INST. -/
theorem guarded_of_inst_lt (hk : k < count) : guarded i [instCheck k count] s e = .next e :=
  guarded_of_pass (by simpa using hk)

/-- A command whose checks are of INST and of IDX. -/
theorem guarded_of_inst_lt_idx_lt (hk : k < count) (hn : n < bound) :
    guarded i [instCheck k count, idxCheck n bound] s e = .next e :=
  guarded_of_pass (by simpa using ⟨hk, hn⟩)

/-- INST at the count of its unit or above is BAD_INSTANCE (30_encoding.md R113). -/
theorem faults_badInstance (hu : usesInst i.fields.unit i.fields.op = true)
    (hk : countOf s.cfg i.fields.unit ≤ i.fields.inst) : Faults i 3 s :=
  faults_of_check (by simp [check, badInstance, hu, hk])

/-- With INST below the count, an IDX outside the range of its row is BAD_INDEX. -/
theorem faults_badIndex {lo hi : Nat} (hk : i.fields.inst < countOf s.cfg i.fields.unit)
    (hr : idxRange s.cfg i.fields.unit i.fields.op i.fields.inst = some (lo, hi))
    (hn : i.fields.idx < lo ∨ hi ≤ i.fields.idx) : Faults i 4 s := by
  have hinst : badInstance s i.fields = false := by simp [badInstance, Nat.not_le.mpr hk]
  have hidx : badIndex s i.fields = true := by simpa [badIndex, hr] using hn
  exact faults_of_check (by simp [check, hinst, hidx])

end

end Sys2Proof.Machine
end

section
/-! PROOFS. The RESET command of each unit clears the stream state of one entry of its bank (41_fir_iir.md R161, R171,
42_pwm.md R191, 43_clock_recovery.md R200, 44_prbs9.md R222, 47_dsp_conditioning.md R290, R300). -/

namespace Sys2Proof.Machine

open Sys2Proof.Spec

section
variable {s : State} {k : Nat} (arg : Word)

theorem exec_firReset (hk : k < s.cfg.nfir) :
    exec (.firReset k arg) s = .next ((s.setFir k (s.firAt k).clear).setRes resNone) := guarded_of_inst_lt hk

theorem exec_iirReset (hk : k < s.cfg.niir) :
    exec (.iirReset k arg) s = .next ((s.setIir k (s.iirAt k).clear).setRes resNone) := guarded_of_inst_lt hk

theorem exec_pwmReset (hk : k < s.cfg.npwm) :
    exec (.pwmReset k arg) s = .next ((s.setPwm k (s.pwmAt k).clear).setRes resNone) := guarded_of_inst_lt hk

theorem exec_crReset (hk : k < s.cfg.ncr) :
    exec (.crReset k arg) s = .next ((s.setCr k (s.crAt k).clear).setRes resNone) := guarded_of_inst_lt hk

theorem exec_prbsReset (hk : k < s.cfg.nprbs) :
    exec (.prbsReset k arg) s = .next ((s.setPrbs k (s.prbsAt k).clear).setRes resNone) := guarded_of_inst_lt hk

theorem exec_dcrReset (hk : k < s.cfg.ndcr) :
    exec (.dcrReset k arg) s = .next ((s.setDcr k (s.dcrAt k).clear).setRes resNone) := guarded_of_inst_lt hk

theorem exec_ngReset (hk : k < s.cfg.nng) :
    exec (.ngReset k arg) s = .next ((s.setNg k (s.ngAt k).clear).setRes resNone) := guarded_of_inst_lt hk

end

/-- Settles O21: below its count each command writes the cleared entry back, and from there on it is BAD_INSTANCE. PWM
and PRBS hold nothing but stream state, so that what the entry was does not matter. -/
theorem unitResetsClearOneStream : Obligations.UnitResetsClearOneStream := by
  intro s k arg
  refine ⟨fun f hk hf => ?_, fun f hk hf => ?_, exec_pwmReset arg, fun c hk hc => ?_, exec_prbsReset arg,
    fun d hk hd => ?_, fun g hk hg => ?_, fun hk => faults_badInstance rfl hk, fun hk => faults_badInstance rfl hk,
    fun hk => faults_badInstance rfl hk, fun hk => faults_badInstance rfl hk, fun hk => faults_badInstance rfl hk,
    fun hk => faults_badInstance rfl hk, fun hk => faults_badInstance rfl hk,
    encodes_fields (.firReset k arg) s, encodes_fields (.iirReset k arg) s, encodes_fields (.pwmReset k arg) s,
    encodes_fields (.crReset k arg) s, encodes_fields (.prbsReset k arg) s, encodes_fields (.dcrReset k arg) s,
    encodes_fields (.ngReset k arg) s⟩
  · rw [exec_firReset arg hk, firAt_of_some hf, FirInst.clear_eq]; rfl
  · rw [exec_iirReset arg hk, iirAt_of_some hf, IirInst.clear_eq]; rfl
  · rw [exec_crReset arg hk, crAt_of_some hc, CrInst.clear_eq]; rfl
  · rw [exec_dcrReset arg hk, dcrAt_of_some hd]; rfl
  · rw [exec_ngReset arg hk, ngAt_of_some hg]; rfl

end Sys2Proof.Machine
end

section
/-! PROOFS. The filters' coefficients are written and read verbatim, and their histories are read (41_fir_iir.md R162,
R166 to R168, R172, R173, R176 to R179). -/

namespace Sys2Proof.Machine

open Sys2Proof.Spec

/-! ### Writing a coefficient -/

section
variable {s : State} {k n : Nat} (arg : Word)

theorem exec_firSettap (hk : k < s.cfg.nfir) (hn : n < s.cfg.firN k) : exec (.firSettap k n arg) s =
    .next ((s.setFir k { s.firAt k with taps := (s.firAt k).taps.set n arg }).setRes resNone) :=
  guarded_of_inst_lt_idx_lt hk hn

theorem exec_iirSetnum (hk : k < s.cfg.niir) (hn : n < s.cfg.iirLen k) : exec (.iirSetnum k n arg) s =
    .next ((s.setIir k { s.iirAt k with num := (s.iirAt k).num.set n arg }).setRes resNone) :=
  guarded_of_inst_lt_idx_lt hk hn

theorem exec_iirSetden (hk : k < s.cfg.niir) (hn : n < s.cfg.iirLen k) : exec (.iirSetden k n arg) s =
    .next ((s.setIir k { s.iirAt k with den := (s.iirAt k).den.set n arg }).setRes resNone) :=
  guarded_of_inst_lt_idx_lt hk hn

end

/-- Settles O22: with both checks passed the command replaces one coefficient of one entry. -/
theorem coefficientWritesStoreVerbatim : Obligations.CoefficientWritesStoreVerbatim := by
  intro s k n arg
  refine ⟨fun f hk hn hf => ?_, fun f hk hn hf => ?_, fun f hk hn hf => ?_, fun hk => faults_badInstance rfl hk,
    fun hk => ⟨faults_badInstance rfl hk, faults_badInstance rfl hk⟩, fun hk hn => faults_badIndex hk rfl (.inr hn),
    fun hk hn => ⟨faults_badIndex hk rfl (.inr hn), faults_badIndex hk rfl (.inr hn)⟩,
    encodes_fields (.firSettap k n arg) s, encodes_fields (.iirSetnum k n arg) s, encodes_fields (.iirSetden k n arg) s⟩
  · rw [exec_firSettap arg hk hn, firAt_of_some hf]; rfl
  · rw [exec_iirSetnum arg hk hn, iirAt_of_some hf]; rfl
  · rw [exec_iirSetden arg hk hn, iirAt_of_some hf]; rfl

/-! ### Reading the FIR bank -/

section
variable {s : State} {k n : Nat} (arg : Word)

theorem exec_firRdtap (hk : k < s.cfg.nfir) (hn : n < s.cfg.firN k) :
    exec (.firRdtap k n arg) s = .next (s.setRes ((s.firAt k).taps.getD n 0#32)) := guarded_of_inst_lt_idx_lt hk hn

theorem exec_firRdhist (hk : k < s.cfg.nfir) (hn : n < s.cfg.firN k) :
    exec (.firRdhist k n arg) s = .next (s.setRes ((s.firAt k).hist.getD n 0#32)) := guarded_of_inst_lt_idx_lt hk hn

theorem exec_firRdn (hk : k < s.cfg.nfir) : exec (.firRdn k arg) s = .next (s.setRes (resNat (s.cfg.firN k))) :=
  guarded_of_inst_lt hk

end

/-- Settles O24: an index that passes the check names an entry of the list that is read. -/
theorem firReadback : Obligations.FirReadback := by
  intro s k n arg
  refine ⟨fun f v hk hn hf hv => ?_, fun f v hk hn hf hv => ?_, fun taps htaps => ?_,
    fun hk => ⟨faults_badInstance rfl hk, faults_badInstance rfl hk, faults_badInstance rfl hk⟩,
    fun hk hn => ⟨faults_badIndex hk rfl (.inr hn), faults_badIndex hk rfl (.inr hn)⟩,
    encodes_fields (.firRdtap k n arg) s, encodes_fields (.firRdhist k n arg) s, encodes_fields (.firRdn k arg) s⟩
  · rw [exec_firRdtap arg hk hn, firAt_of_some hf, getD_of_getElem? hv]; rfl
  · rw [exec_firRdhist arg hk hn, firAt_of_some hf, getD_of_getElem? hv]; rfl
  · rw [exec_firRdn arg (lt_of_getElem? htaps), Config.firN, getD_of_getElem? htaps]; rfl

/-! ### Reading the IIR bank -/

section
variable {s : State} {k n : Nat} (arg : Word)

theorem exec_iirRdnum (hk : k < s.cfg.niir) (hn : n < s.cfg.iirLen k) :
    exec (.iirRdnum k n arg) s = .next (s.setRes ((s.iirAt k).num.getD n 0#32)) := guarded_of_inst_lt_idx_lt hk hn

theorem exec_iirRdden (hk : k < s.cfg.niir) (hn : n < s.cfg.iirLen k) :
    exec (.iirRdden k n arg) s = .next (s.setRes ((s.iirAt k).den.getD n 0#32)) := guarded_of_inst_lt_idx_lt hk hn

/-- W[n + 1] is entry n of the history (log 16). -/
theorem exec_iirRdhist (hk : k < s.cfg.niir) (hn : n + 1 < s.cfg.iirLen k) :
    exec (.iirRdhist k (n + 1) arg) s = .next (s.setRes ((s.iirAt k).w.getD n 0#32)) :=
  guarded_of_pass (by simpa [iirHistCheck] using ⟨hk, hn⟩)

theorem exec_iirRdn (hk : k < s.cfg.niir) : exec (.iirRdn k arg) s = .next (s.setRes (resNat (s.cfg.iirLen k))) :=
  guarded_of_inst_lt hk

end

/-- Settles O25: as for the FIR bank; the index of IIR.RDHIST starts at 1, so that 0 is BAD_INDEX too. -/
theorem iirReadback : Obligations.IirReadback := by
  intro s k n arg
  refine ⟨fun f v hk hn hf hv => ?_, fun f v hk hn hf hv => ?_, fun f v i hk hi hf hv => ?_, fun len hlen => ?_,
    fun hk => ⟨faults_badInstance rfl hk, faults_badInstance rfl hk, faults_badInstance rfl hk,
      faults_badInstance rfl hk⟩,
    fun hk hn => ⟨faults_badIndex hk rfl (.inr hn), faults_badIndex hk rfl (.inr hn)⟩,
    fun hk hn => faults_badIndex hk rfl (hn.imp_left Nat.lt_one_iff.mpr),
    encodes_fields (.iirRdnum k n arg) s, encodes_fields (.iirRdden k n arg) s, encodes_fields (.iirRdhist k n arg) s,
    encodes_fields (.iirRdn k arg) s⟩
  · rw [exec_iirRdnum arg hk hn, iirAt_of_some hf, getD_of_getElem? hv]; rfl
  · rw [exec_iirRdden arg hk hn, iirAt_of_some hf, getD_of_getElem? hv]; rfl
  · rw [exec_iirRdhist arg hk hi, iirAt_of_some hf, getD_of_getElem? hv]; rfl
  · rw [exec_iirRdn arg (lt_of_getElem? hlen), Config.iirLen, getD_of_getElem? hlen]; rfl

end Sys2Proof.Machine
end

section
/-! PROOFS. The filter steps (41_fir_iir.md R163 to R165, R170, R174, R175): a step's accumulators run over the indices
of its lists from the lowest upward, and its history shifts by one. -/

namespace Sys2Proof.Machine

open Sys2Proof.Spec

/-! ### The sample in ARG, the history and the accumulators in the spec's own terms -/

/-- ARG[15:0] as a signed number (00_scope.md R16). -/
theorem argS16_eq_sampleOf (arg : Word) : argS16 arg = sampleOf arg := by
  rw [argS16, sampleOf, BitVec.toInt_eq_toNat_cond, BitVec.toNat_setWidth]
  split <;> split <;> omega

/-- The newest word enters a history at index 0, and the oldest leaves. -/
theorem shiftedIn_pushHist (x : F32) (old : List F32) : ShiftedIn x old (pushHist x old) :=
  ⟨pushHist_length x old, pushHist_succ x old, pushHist_zero x old⟩

/-- After n indices the sum of R163 is the accumulation over the first n pairs. -/
theorem firAcc_eq_macFrom_take (c x : List F32) {n : Nat} (hc : n ≤ c.length) (hx : n ≤ x.length) :
    firAcc c x n = macFrom 0#32 (c.take n) (x.take n) := by
  induction n with
  | zero => rfl
  | succ n ih =>
    have hlen : (c.take n).length = (x.take n).length := by simp only [List.length_take]; omega
    rw [firAcc, ih (by omega) (by omega), List.getD_eq_getElem _ _ hc, List.getD_eq_getElem _ _ hx,
      ← macFrom_append _ _ _ _ _ hlen, List.take_append_getElem, List.take_append_getElem]

/-- Over lists of one length it is the accumulation over all pairs. -/
theorem firAcc_eq_macFrom {c x : List F32} {n : Nat} (hc : c.length = n) (hx : x.length = n) :
    firAcc c x n = macFrom 0#32 c x := by
  rw [firAcc_eq_macFrom_take c x hc.ge hx.ge, List.take_of_length_le hc.le, List.take_of_length_le hx.le]

/-- The sums of R170 skip coefficient 0. -/
theorem iirAcc_eq_firAcc_tail (c w : List F32) (n : Nat) : iirAcc c w n = firAcc c.tail w n := by
  induction n with
  | zero => rfl
  | succ n ih =>
    have hcoef : c.tail.getD n 0#32 = c.getD (n + 1) 0#32 := by cases c <;> rfl
    rw [iirAcc, firAcc, ih, hcoef]

/-! ### FIR -/

/-- `fir_step` answers the sum over the taps and the shifted history (41_fir_iir.md R163). -/
theorem firOut_eq_firAcc {f : FirInst} {n : Nat} (htaps : f.taps.length = n) (hhist : f.hist.length = n) (x : F32) :
    firOut f x = firAcc f.taps (pushHist x f.hist) n :=
  (firAcc_eq_macFrom htaps ((pushHist_length x f.hist).trans hhist)).symm

section
variable {s : State} {k : Nat} (arg : Word)

theorem exec_firStepf (hk : k < s.cfg.nfir) : exec (.firStepf k arg) s =
    .next ((s.setFir k (firPush (s.firAt k) arg)).setRes (firOut (s.firAt k) arg)) := guarded_of_inst_lt hk

theorem exec_firStep (hk : k < s.cfg.nfir) : exec (.firStep k arg) s =
    .next ((s.setFir k (firPush (s.firAt k) (f32OfInt (sampleOf arg)))).setRes
      (sampleWord (cvtS16 (firOut (s.firAt k) (f32OfInt (sampleOf arg)))))) := by
  rw [← argS16_eq_sampleOf]
  exact guarded_of_inst_lt hk

end

/-- Settles O29: FIR.STEPF is `fir_step` on ARG, and FIR.STEP on the sample in ARG with its result made a sample. -/
theorem firStepsConvolveTheHistory : Obligations.FirStepsConvolveTheHistory := by
  intro s k arg
  refine ⟨fun f hf hk _ htaps hhist => ?_, fun hk => ⟨faults_badInstance rfl hk, faults_badInstance rfl hk⟩,
    encodes_fields (.firStep k arg) s, encodes_fields (.firStepf k arg) s⟩
  refine ⟨⟨_, shiftedIn_pushHist _ f.hist, ?_⟩, ⟨_, shiftedIn_pushHist _ f.hist, ?_⟩⟩
  · rw [exec_firStepf arg hk, firAt_of_some hf, firOut_eq_firAcc htaps hhist]; rfl
  · rw [exec_firStep arg hk, firAt_of_some hf, firOut_eq_firAcc htaps hhist]; rfl

/-! ### IIR -/

/-- An accumulator of `iir_step` is R170's, when there is one coefficient more than history words. -/
theorem macFrom_tail_eq_iirAcc {c w : List F32} (h : c.length = w.length + 1) :
    macFrom 0#32 c.tail w = iirAcc c w w.length := by
  rw [iirAcc_eq_firAcc_tail, firAcc_eq_macFrom (by simp [h]) rfl]

/-- `iir_step`'s w is the input less the denominator's sum (41_fir_iir.md R170). -/
theorem iirNewW_eq {f : IirInst} (hden : f.den.length = f.w.length + 1) (x : F32) :
    iirNewW f x = fsub x (iirAcc f.den f.w f.w.length) := by
  rw [iirNewW, iirAccDen, macFrom_tail_eq_iirAcc hden]

/-- And its answer is the numerator's sum and NUM[0] w (41_fir_iir.md R170). -/
theorem iirOut_eq {f : IirInst} (hnum : f.num.length = f.w.length + 1) (x : F32) :
    iirOut f x = fadd (iirAcc f.num f.w f.w.length) (fmul (f.num.getD 0 0#32) (iirNewW f x)) := by
  rw [iirOut, iirAccNum, macFrom_tail_eq_iirAcc hnum]

section
variable {s : State} {k : Nat} (arg : Word)

theorem exec_iirStepf (hk : k < s.cfg.niir) : exec (.iirStepf k arg) s =
    .next ((s.setIir k (iirPush (s.iirAt k) arg)).setRes (iirOut (s.iirAt k) arg)) := guarded_of_inst_lt hk

theorem exec_iirStep (hk : k < s.cfg.niir) : exec (.iirStep k arg) s =
    .next ((s.setIir k (iirPush (s.iirAt k) (f32OfInt (sampleOf arg)))).setRes
      (sampleWord (cvtS16 (iirOut (s.iirAt k) (f32OfInt (sampleOf arg)))))) := by
  rw [← argS16_eq_sampleOf]
  exact guarded_of_inst_lt hk

end

/-- Settles O30: IIR.STEPF is `iir_step` on ARG, and IIR.STEP on the sample in ARG with its result made a sample. -/
theorem iirStepsAreDirectFormTwo : Obligations.IirStepsAreDirectFormTwo := by
  intro s k arg
  refine ⟨fun f hf hk _ hnum hden hw => ?_, fun hk => ⟨faults_badInstance rfl hk, faults_badInstance rfl hk⟩,
    encodes_fields (.iirStep k arg) s, encodes_fields (.iirStepf k arg) s⟩
  rw [← hw] at hnum hden
  refine ⟨⟨_, shiftedIn_pushHist _ f.w, ?_⟩, ⟨_, shiftedIn_pushHist _ f.w, ?_⟩⟩
  · rw [exec_iirStepf arg hk, iirAt_of_some hf, iirOut_eq hnum, iirPush, iirNewW_eq hden]; rfl
  · rw [exec_iirStep arg hk, iirAt_of_some hf, iirOut_eq hnum, iirPush, iirNewW_eq hden]; rfl

end Sys2Proof.Machine
end

section
/-! PROOFS. The PWM bank (42_pwm.md R190 to R194): its step, and the coefficients and registers read back. -/

namespace Sys2Proof.Machine

open Sys2Proof.Spec

section
variable {s : State} {k n : Nat} (arg : Word)

/-- `pwm_step` on the sample in ARG, its half answered as a sample (42_pwm.md R192). -/
theorem exec_pwmStep (hk : k < s.cfg.npwm) : exec (.pwmStep k arg) s =
    .next ((s.setPwm k (pwmPush s.cfg.pwmCoef (s.pwmAt k) (f32OfInt (sampleOf arg)))).setRes
      (sampleWord (cvtS16 (pwmOut s.cfg.pwmCoef (s.pwmAt k) (f32OfInt (sampleOf arg)))))) := by
  rw [← argS16_eq_sampleOf]
  exact guarded_of_inst_lt hk

/-- The coefficients do not depend on the instance (42_pwm.md R193). -/
theorem exec_pwmRdcoef (hk : k < s.cfg.npwm) (hn : n < 5) :
    exec (.pwmRdcoef k n arg) s = .next (s.setRes ((coefList s.cfg.pwmCoef).getD n 0#32)) :=
  guarded_of_inst_lt_idx_lt hk hn

theorem exec_pwmRdstate (hk : k < s.cfg.npwm) (hn : n < 4) :
    exec (.pwmRdstate k n arg) s = .next (s.setRes ((pwmRegs (s.pwmAt k)).getD n 0#32)) :=
  guarded_of_inst_lt_idx_lt hk hn

end

/-- Settles O26: an index that names one of the five coefficients or four registers passes the check of IDX. -/
theorem pwmReadback : Obligations.PwmReadback := by
  intro s k n arg
  refine ⟨fun v hk hv => ?_, fun p v hk hp hv => ?_,
    fun hk => ⟨faults_badInstance rfl hk, faults_badInstance rfl hk⟩,
    fun hk hn => faults_badIndex hk rfl (.inr hn), fun hk hn => faults_badIndex hk rfl (.inr hn),
    encodes_fields (.pwmRdcoef k n arg) s, encodes_fields (.pwmRdstate k n arg) s⟩
  · rw [exec_pwmRdcoef arg hk (lt_of_getElem? hv), coefList, getD_of_getElem? hv]; rfl
  · rw [exec_pwmRdstate arg hk (lt_of_getElem? hv), pwmAt_of_some hp, pwmRegs, getD_of_getElem? hv]; rfl

/-- Settles O31: y is `pwmY`, which the instance keeps whole and the answer halves. -/
theorem pwmStepFiltersAndHalves : Obligations.PwmStepFiltersAndHalves := by
  intro s k arg
  refine ⟨fun p y hk hp hy => ?_, fun hk => faults_badInstance rfl hk, encodes_fields (.pwmStep k arg) s⟩
  have hpush : pwmPush s.cfg.pwmCoef p (f32OfInt (sampleOf arg)) = ⟨f32OfInt (sampleOf arg), p.u1, y, p.y1⟩ := by
    rw [hy]; rfl
  have hout : pwmOut s.cfg.pwmCoef p (f32OfInt (sampleOf arg)) = fmul 0x3F000000#32 y := by rw [hy]; rfl
  rw [exec_pwmStep arg hk, pwmAt_of_some hp, hpush, hout]; rfl

end Sys2Proof.Machine
end

section
/-! PROOFS. The clock-recovery bank (43_clock_recovery.md R201 to R208): its registers read back, the delta of a sample
added to one bin, and the scan of the bins for the first crossing. -/

namespace Sys2Proof.Machine

open Sys2Proof.Spec

/-! ### Reading the bank -/

section
variable {s : State} {k n : Nat} (arg : Word)

theorem exec_crGetsp (hk : k < s.cfg.ncr) : exec (.crGetsp k arg) s = .next (s.setRes (resNat (s.crAt k).sp)) :=
  guarded_of_inst_lt hk

theorem exec_crRdenergy (hk : k < s.cfg.ncr) (hn : n < s.cfg.sps) :
    exec (.crRdenergy k n arg) s = .next (s.setRes ((s.crAt k).energy.getD n 0#32)) := guarded_of_inst_lt_idx_lt hk hn

theorem exec_crRdcount (hk : k < s.cfg.ncr) : exec (.crRdcount k arg) s = .next (s.setRes (s.crAt k).nsamp) :=
  guarded_of_inst_lt hk

theorem exec_crRdcursor (hk : k < s.cfg.ncr) :
    exec (.crRdcursor k arg) s = .next (s.setRes (resNat (s.crAt k).cursor)) := guarded_of_inst_lt hk

theorem exec_crRdprev (hk : k < s.cfg.ncr) :
    exec (.crRdprev k arg) s = .next (s.setRes (resSample (s.crAt k).prev.toInt)) := guarded_of_inst_lt hk

end

/-- A sample register is read with its sign extended (43_clock_recovery.md R208). -/
theorem resSample_toInt (v : BitVec 16) : resSample v.toInt = v.signExtend 32 := by rw [resSample, BitVec.ofInt_toInt]

/-- Settles O28: each command reads one register of the entry; the index of CR.RDENERGY names a bin. -/
theorem clockRecoveryReadback : Obligations.ClockRecoveryReadback := by
  intro s k n arg
  refine ⟨fun c hk hc => ⟨?_, ?_, ?_, ?_, fun v hn hv => ?_⟩,
    fun hk => ⟨faults_badInstance rfl hk, faults_badInstance rfl hk, faults_badInstance rfl hk,
      faults_badInstance rfl hk, faults_badInstance rfl hk⟩,
    fun hk hn => faults_badIndex hk rfl (.inr hn),
    encodes_fields (.crGetsp k arg) s, encodes_fields (.crRdenergy k n arg) s, encodes_fields (.crRdcount k arg) s,
    encodes_fields (.crRdcursor k arg) s, encodes_fields (.crRdprev k arg) s⟩
  · rw [exec_crGetsp arg hk, crAt_of_some hc]; rfl
  · rw [exec_crRdcount arg hk, crAt_of_some hc]; rfl
  · rw [exec_crRdcursor arg hk, crAt_of_some hc]; rfl
  · rw [exec_crRdprev arg hk, crAt_of_some hc, resSample_toInt]; rfl
  · rw [exec_crRdenergy arg hk hn, crAt_of_some hc, getD_of_getElem? hv]; rfl

/-! ### CR.SAMPLE -/

theorem exec_crSample {s : State} {k : Nat} (arg : Word) (hk : k < s.cfg.ncr) : exec (.crSample k arg) s =
    .next ((s.setCr k (crTake s.cfg.sps (s.crAt k) (sampleOf arg))).setRes resNone) := by
  rw [← argS16_eq_sampleOf]
  exact guarded_of_inst_lt hk

/-- The negated difference is the difference the other way round. -/
theorem crDelta_eq (x p : Int) : crDelta x p = if x + p < 0 then p - x else x - p := by rw [crDelta, neg_sub]

/-- The bin at CURSOR holds its old energy and the delta, wrapped to 32 bits. -/
theorem crAccumulate_eq {c : CrInst} {e : BitVec 32} (he : c.energy[c.cursor]? = some e) (x : Int) :
    crAccumulate c x = c.energy.set c.cursor (BitVec.ofInt 32 (e.toInt + crDelta x c.prev.toInt)) := by
  rw [crAccumulate, getD_of_getElem? he, wrap32]

/-- NSAMP counts in 32 bits. -/
theorem add_one_eq_ofNat (n : BitVec 32) : n + 1#32 = BitVec.ofNat 32 (n.toNat + 1) := by
  rw [BitVec.ofNat_add, BitVec.ofNat_toNat, BitVec.setWidth_eq]

/-- Settles O34: the entry after the sample, register by register. -/
theorem clockRecoverySample : Obligations.ClockRecoverySample := by
  intro s k arg
  refine ⟨fun c e e' hk hc he he' => ?_, fun hk => faults_badInstance rfl hk, encodes_fields (.crSample k arg) s⟩
  rw [exec_crSample arg hk, crAt_of_some hc, crTake, crAccumulate_eq he, crDelta_eq, ← he', add_one_eq_ofNat]; rfl

/-! ### The scan of CR.UPDATE finds the first crossing of R202 -/

section
variable {e : BitVec 32} {es : List (BitVec 32)}

/-- A found crossing is never index 0: no index lies before it (43_clock_recovery.md R203). -/
theorem not_crossesAt_zero : ¬ CrossesAt es 0 := fun ⟨_, _, hj, _⟩ => absurd hj (Nat.not_lt_zero _)

theorem posAt_cons_zero : PosAt (e :: es) 0 ↔ 0 < e.toInt := by simp [PosAt]

/-- The positive energy before a crossing past the head is the head or one of the tail. -/
theorem crossesAt_cons_succ {i : Nat} :
    CrossesAt (e :: es) (i + 1) ↔ NegAt es i ∧ (0 < e.toInt ∨ ∃ j, j < i ∧ PosAt es j) := by
  refine and_congr_right fun _ => ⟨?_, ?_⟩
  · rintro ⟨_ | j, hj, hpos⟩
    · exact .inl (posAt_cons_zero.mp hpos)
    · exact .inr ⟨j, Nat.lt_of_succ_lt_succ hj, hpos⟩
  · rintro (he | ⟨j, hj, hpos⟩)
    · exact ⟨0, Nat.succ_pos i, posAt_cons_zero.mpr he⟩
    · exact ⟨j + 1, Nat.succ_lt_succ hj, hpos⟩

/-- After a positive head every negative energy is a crossing. -/
theorem crossesAt_cons_of_pos (he : 0 < e.toInt) {i : Nat} : CrossesAt (e :: es) (i + 1) ↔ NegAt es i := by
  simp [crossesAt_cons_succ, he]

/-- A head that is not positive takes no part in a crossing. -/
theorem crossesAt_cons_of_not_pos (he : ¬ 0 < e.toInt) {i : Nat} : CrossesAt (e :: es) (i + 1) ↔ CrossesAt es i := by
  rw [crossesAt_cons_succ, or_iff_right he, CrossesAt]

theorem crossing_cons_of_pos (he : 0 < e.toInt) (i : Nat) : crossing false i (e :: es) = crossing true (i + 1) es := by
  simp [crossing, he]

theorem crossing_cons_of_not_pos (he : ¬ 0 < e.toInt) (i : Nat) :
    crossing false i (e :: es) = crossing false (i + 1) es := by
  simp [crossing, he]

end

/-- Once a positive energy was met the scan stops at the first negative one. -/
theorem crossing_true_of_first_neg {es : List (BitVec 32)} {j : Nat} (hneg : NegAt es j)
    (hfirst : ∀ j', j' < j → ¬ NegAt es j') (i : Nat) : crossing true i es = i + j := by
  obtain ⟨v, hv, hlt⟩ := hneg
  rcases crossing_after_positive es i with ⟨m, w, hw, hwneg, hbefore, hscan⟩ | ⟨hnone, -⟩
  · have hjm : ¬ j < m := fun h => hbefore j v h hv hlt
    have hmj : ¬ m < j := fun h => hfirst m h ⟨w, hw, hwneg⟩
    omega
  · exact absurd hlt (hnone j v hv)

/-- And it answers 0 where there is none. -/
theorem crossing_true_of_no_neg {es : List (BitVec 32)} (h : ∀ j, ¬ NegAt es j) (i : Nat) : crossing true i es = 0 := by
  rcases crossing_after_positive es i with ⟨m, w, hw, hwneg, -⟩ | ⟨-, hscan⟩
  · exact absurd ⟨w, hw, hwneg⟩ (h m)
  · exact hscan

/-- The scan from index i on answers the first crossing. -/
theorem crossing_of_firstCrossing {es : List (BitVec 32)} {j : Nat} (h : FirstCrossing es j) (i : Nat) :
    crossing false i es = i + j := by
  induction es generalizing i j with
  | nil =>
    obtain ⟨⟨⟨v, hv, -⟩, -⟩, -⟩ := h
    simp at hv
  | cons e es ih =>
    obtain ⟨hcross, hfirst⟩ := h
    cases j with
    | zero => exact absurd hcross not_crossesAt_zero
    | succ j =>
      have hbefore : ∀ m, m < j → ¬ CrossesAt (e :: es) (m + 1) := fun m hm => hfirst (m + 1) (Nat.succ_lt_succ hm)
      by_cases he : 0 < e.toInt
      · simp only [crossesAt_cons_of_pos he] at hcross hbefore
        rw [crossing_cons_of_pos he, crossing_true_of_first_neg hcross hbefore, Nat.add_right_comm, Nat.add_assoc]
      · simp only [crossesAt_cons_of_not_pos he] at hcross hbefore
        rw [crossing_cons_of_not_pos he, ih ⟨hcross, hbefore⟩, Nat.add_right_comm, Nat.add_assoc]

/-- The scan answers 0 where no index crosses. -/
theorem crossing_of_no_crossing {es : List (BitVec 32)} (h : ∀ j, ¬ CrossesAt es j) (i : Nat) :
    crossing false i es = 0 := by
  induction es generalizing i with
  | nil => rfl
  | cons e es ih =>
    by_cases he : 0 < e.toInt
    · rw [crossing_cons_of_pos he]
      exact crossing_true_of_no_neg (fun j hneg => h (j + 1) ((crossesAt_cons_of_pos he).mpr hneg)) _
    · rw [crossing_cons_of_not_pos he]
      exact ih (fun j hcross => h (j + 1) ((crossesAt_cons_of_not_pos he).mpr hcross)) _

/-! ### CR.UPDATE -/

/-- A crossing lies above index 0 and below the number of bins. -/
theorem crossesAt_bounds {es : List (BitVec 32)} {i : Nat} (h : CrossesAt es i) : 0 < i ∧ i < es.length := by
  obtain ⟨⟨_, hneg, -⟩, _, hj, -⟩ := h
  exact ⟨Nat.zero_lt_of_lt hj, lt_of_getElem? hneg⟩

/-- SP is one before the first crossing, in 0..SPS-2 (43_clock_recovery.md R203). -/
theorem newSp_of_firstCrossing {es : List (BitVec 32)} {i : Nat} (h : FirstCrossing es i) :
    newSp es.length (crossing false 0 es) + 1 = i ∧ newSp es.length (crossing false 0 es) + 2 ≤ es.length := by
  obtain ⟨hpos, hlt⟩ := crossesAt_bounds h.1
  rw [crossing_of_firstCrossing h, Nat.zero_add, newSp, if_neg hpos.ne']
  omega

/-- SP is SPS - 1 where no index crosses (43_clock_recovery.md R203). -/
theorem newSp_of_no_crossing {es : List (BitVec 32)} (sps : Nat) (h : ∀ j, ¬ CrossesAt es j) :
    newSp sps (crossing false 0 es) = sps - 1 := by
  rw [crossing_of_no_crossing h, newSp, if_pos rfl]

/-- With NSAMP not 0 the bins and NSAMP are cleared and SP is the scan's. -/
theorem crUpdated_of_nsamp_ne {c : CrInst} {sps : Nat} (hbins : c.energy.length = sps) (h : c.nsamp ≠ 0#32) :
    crUpdated sps c =
      ⟨List.replicate sps 0#32, c.prev, c.cursor, 0#32, newSp sps (crossing false 0 c.energy)⟩ := by
  rw [crUpdated, if_neg h, crEstimate, List.map_const', hbins]

theorem exec_crUpdate {s : State} {k : Nat} (arg : Word) (hk : k < s.cfg.ncr) : exec (.crUpdate k arg) s =
    .next ((s.setCr k (crUpdated s.cfg.sps (s.crAt k))).setRes resNone) := guarded_of_inst_lt hk

/-- Settles O35: with NSAMP 0 the entry is written back as it was, and else SP comes from the scan, which finds the first
crossing. -/
theorem clockRecoveryUpdate : Obligations.ClockRecoveryUpdate := by
  intro s k arg
  refine ⟨fun c hk hc hbins => ⟨fun hnone => ?_, fun hsome => ?_⟩, fun hk => faults_badInstance rfl hk,
    encodes_fields (.crUpdate k arg) s⟩
  · rw [exec_crUpdate arg hk, crAt_of_some hc, crUpdated, if_pos hnone, State.setCr, set_same hc]; rfl
  · refine ⟨newSp s.cfg.sps (crossing false 0 c.energy), ?_, fun i hfirst => ?_, newSp_of_no_crossing _⟩
    · rw [exec_crUpdate arg hk, crAt_of_some hc, crUpdated_of_nsamp_ne hbins hsome]; rfl
    · rw [← hbins]; exact newSp_of_firstCrossing hfirst

end Sys2Proof.Machine
end

section
/-! PROOFS. The PRBS9 bank (44_prbs9.md R220 to R225): the model's register of bits is the spec's formula on numbers,
and each command has the spec's effect on one entry. -/

namespace Sys2Proof.Machine

open Sys2Proof.Spec

/-! ### The feedback bit and the shift (44_prbs9.md R220) -/

/-- ARG[0] as a number. -/
theorem bitOf_eq_toNat (arg : Word) : bitOf arg = (argBit arg).toNat := by
  rw [bitOf, argBit, BitVec.getLsbD, Nat.testBit_zero]
  rcases Nat.mod_two_eq_zero_or_one arg.toNat with h | h <;> simp [h]

/-- A sum of two bits modulo 2 is their exclusive or. -/
theorem fb_eq_toNat (v : BitVec 9) : fb v = (prbsFb v).toNat := by
  simp only [fb, prbsFb, BitVec.getLsbD, Nat.testBit_eq_decide_div_mod_eq]
  rcases Nat.mod_two_eq_zero_or_one (v.toNat / 256) with h8 | h8 <;>
    rcases Nat.mod_two_eq_zero_or_one (v.toNat / 16) with h4 | h4 <;> simp [Nat.add_mod, h8, h4]

/-- `shift` is Lean's own shift with an incoming bit. -/
theorem prbsShift_eq_shiftConcat (v : BitVec 9) (b : Bool) : prbsShift v b = v.shiftConcat b := by
  ext i hi
  rw [BitVec.getElem_shiftConcat]
  cases b <;> cases i <;> simp [prbsShift]

theorem shift_toNat (v : BitVec 9) (b : Bool) : shift v b.toNat = prbsShift v b := by
  apply BitVec.eq_of_toNat_eq
  rw [prbsShift_eq_shiftConcat, BitVec.toNat_shiftConcat, Nat.shiftLeft_eq, shift, BitVec.toNat_ofNat, Nat.mul_comm]

/-- The result form of one bit (00_scope.md R17). -/
theorem ofNat_toNat_eq_resBit (b : Bool) : BitVec.ofNat 32 b.toNat = resBit b := by cases b <;> rfl

/-- The comparison of ARG[0] with the feedback bit, as numbers and as bits. -/
theorem bitOf_eq_fb_iff (arg : Word) (v : BitVec 9) : bitOf arg = fb v ↔ argBit arg = prbsFb v := by
  rw [bitOf_eq_toNat, fb_eq_toNat, (Function.LeftInverse.injective Bool.ofNat_toNat).eq_iff]

/-! ### What a command makes of one entry -/

theorem prbsAdvance_eq (p : PrbsInst) : prbsAdvance p = { p with lfsr := shift p.lfsr (fb p.lfsr) } := by
  rw [prbsAdvance, fb_eq_toNat, shift_toNat]

/-- The incoming bit enters, match or mismatch (44_prbs9.md R223). -/
@[simp] theorem prbsTake_lfsr (p : PrbsInst) (b : Bool) : (prbsTake p b).lfsr = prbsShift p.lfsr b := by
  unfold prbsTake
  split <;> rfl

/-- A mismatch zeroes SCNT and keeps LOCKED (44_prbs9.md R223). -/
theorem prbsTake_of_mismatch {p : PrbsInst} {b : Bool} (h : b ≠ prbsFb p.lfsr) :
    prbsTake p b = ⟨prbsShift p.lfsr b, 0#8, p.locked⟩ := by
  rw [prbsTake, if_pos (by simpa using h)]

/-- A match counts, and locks at LOCK_COUNT (44_prbs9.md R223). -/
theorem prbsTake_of_match {p : PrbsInst} {b : Bool} (h : b = prbsFb p.lfsr) :
    prbsTake p b =
      ⟨prbsShift p.lfsr b, p.scnt + 1#8, p.locked || (p.scnt + 1#8).toNat == lockCount⟩ := by
  rw [prbsTake, if_neg (by simpa using h)]

/-- PRBS.SYNC's effect is the one entry that R223 describes. -/
theorem eq_prbsTake {p p' : PrbsInst} {arg : Word} (hlfsr : p'.lfsr = shift p.lfsr (bitOf arg))
    (hmismatch : bitOf arg ≠ fb p.lfsr → p'.scnt = 0#8 ∧ p'.locked = p.locked)
    (hmatch : bitOf arg = fb p.lfsr → p'.scnt = BitVec.ofNat 8 (p.scnt.toNat + 1) ∧
      (p'.locked = true ↔ (p.locked = true ∨ (p.scnt.toNat + 1) % 256 = 18))) :
    p' = prbsTake p (argBit arg) := by
  obtain ⟨lfsr, scnt, locked⟩ := p'
  rw [bitOf_eq_toNat, shift_toNat] at hlfsr
  rw [bitOf_eq_fb_iff] at hmatch
  rw [ne_eq, bitOf_eq_fb_iff] at hmismatch
  by_cases h : argBit arg = prbsFb p.lfsr
  · obtain ⟨hscnt, hlocked⟩ := hmatch h
    have hor : locked = (p.locked || (p.scnt + 1#8).toNat == lockCount) := by
      rw [Bool.eq_iff_iff, Bool.or_eq_true, beq_iff_eq]
      exact hlocked
    rw [prbsTake_of_match h, ← hor]
    exact congr (congrArg₂ PrbsInst.mk hlfsr hscnt) rfl
  · obtain ⟨hscnt, hlocked⟩ := hmismatch h
    rw [prbsTake_of_mismatch h]
    exact congr (congrArg₂ PrbsInst.mk hlfsr hscnt) hlocked

/-- Locked, the answer of PRBS.VALIDATE compares ARG[0] with the predicted bit (44_prbs9.md R224). -/
theorem resBit_prbsAgrees {p : PrbsInst} (hlocked : p.locked = true) (arg : Word) :
    resBit (prbsAgrees p (argBit arg)) = if fb p.lfsr = bitOf arg then 1#32 else 0#32 := by
  have hbit : fb p.lfsr = bitOf arg ↔ (prbsFb p.lfsr == argBit arg) = true := by
    rw [eq_comm, bitOf_eq_fb_iff, beq_iff_eq, eq_comm]
  simp only [prbsAgrees, hlocked, Bool.true_and, resBit, hbit]

/-- LOCKED, SCNT and LFSR lie in disjoint bits of the word (44_prbs9.md R225). -/
theorem prbsWord_eq_ofNat (p : PrbsInst) : prbsWord p =
    BitVec.ofNat 32 ((if p.locked then 2 ^ 24 else 0) + 2 ^ 16 * p.scnt.toNat + p.lfsr.toNat) := by
  apply BitVec.eq_of_toNat_eq
  have hscnt := p.scnt.isLt
  have hlfsr := p.lfsr.isLt
  simp only [prbsWord, toNat_append_eq, BitVec.toNat_ofNat]
  cases p.locked <;> simp <;> omega

/-! ### The commands -/

section
variable {s : State} {k : Nat} (arg : Word)

theorem exec_prbsGen (hk : k < s.cfg.nprbs) : exec (.prbsGen k arg) s =
    .next ((s.setPrbs k (prbsAdvance (s.prbsAt k))).setRes (resBit (prbsFb (s.prbsAt k).lfsr))) :=
  guarded_of_inst_lt hk

theorem exec_prbsSync (hk : k < s.cfg.nprbs) : exec (.prbsSync k arg) s =
    .next ((s.setPrbs k (prbsTake (s.prbsAt k) (argBit arg))).setRes
      (resBit (prbsTake (s.prbsAt k) (argBit arg)).locked)) := guarded_of_inst_lt hk

theorem exec_prbsValidate (hk : k < s.cfg.nprbs) : exec (.prbsValidate k arg) s =
    .next ((s.setPrbs k (prbsValidated (s.prbsAt k))).setRes (resBit (prbsAgrees (s.prbsAt k) (argBit arg)))) :=
  guarded_of_inst_lt hk

theorem exec_prbsRdstate (hk : k < s.cfg.nprbs) :
    exec (.prbsRdstate k arg) s = .next (s.setRes (prbsWord (s.prbsAt k))) := guarded_of_inst_lt hk

end

/-- Settles O36: the entry advances as the formulas on numbers say, and the answer is the feedback bit. -/
theorem prbsGenShiftsInTheFeedback : Obligations.PrbsGenShiftsInTheFeedback := by
  intro s k arg
  refine ⟨fun p hk hp => ?_, fun hk => faults_badInstance rfl hk, encodes_fields (.prbsGen k arg) s⟩
  rw [exec_prbsGen arg hk, prbsAt_of_some hp, prbsAdvance_eq, ← ofNat_toNat_eq_resBit, ← fb_eq_toNat]; rfl

/-- Settles O37: the entry described by its registers is the one the command writes. -/
theorem prbsSyncCountsAndLocks : Obligations.PrbsSyncCountsAndLocks := by
  intro s k arg
  refine ⟨fun p p' hk hp hlfsr hmismatch hmatch => ?_, fun hk => faults_badInstance rfl hk,
    encodes_fields (.prbsSync k arg) s⟩
  rw [exec_prbsSync arg hk, prbsAt_of_some hp, ← eq_prbsTake hlfsr hmismatch hmatch]; rfl

/-- Settles O38: unlocked, PRBS.VALIDATE writes the entry back as it was; locked, it advances the entry as PRBS.GEN
does. -/
theorem prbsValidatePredictsAndRdstatePacks : Obligations.PrbsValidatePredictsAndRdstatePacks := by
  intro s k arg
  refine ⟨fun p hk hp hunlocked => ?_, fun p hk hp hlocked => ?_, fun p hk hp => ?_,
    fun hk => ⟨faults_badInstance rfl hk, faults_badInstance rfl hk⟩,
    encodes_fields (.prbsValidate k arg) s, encodes_fields (.prbsRdstate k arg) s⟩
  · rw [exec_prbsValidate arg hk, prbsAt_of_some hp, prbsValidated, prbsAgrees, hunlocked, State.setPrbs]
    simp only [Bool.false_eq_true, if_false, set_same hp]; rfl
  · rw [exec_prbsValidate arg hk, prbsAt_of_some hp, resBit_prbsAgrees hlocked, prbsValidated, if_pos hlocked,
      prbsAdvance_eq]; rfl
  · rw [exec_prbsRdstate arg hk, prbsAt_of_some hp, prbsWord_eq_ofNat]; rfl

end Sys2Proof.Machine
end

section
/-! PROOFS. Runs of PRBS.SYNC and of PRBS.GEN on one entry (44_prbs9.md R221, R226): a run folds the effect of one
command, so that what is said of it is said of the shift register. -/

namespace Sys2Proof.Machine

open Sys2Proof.Spec

/-- A run of commands that each write `f entry arg` to entry k leaves there the fold of `f` over their ARG words. -/
theorem runAll_foldl_prbs {k : Nat} {cmd : Word → Instr} {f : PrbsInst → Word → PrbsInst}
    (hcmd : ∀ (s : State) (arg : Word), k < s.cfg.nprbs →
      ∃ r, exec (cmd arg) s = .next ((s.setPrbs k (f (s.prbsAt k) arg)).setRes r))
    (args : List Word) : ∀ (s : State) (p : PrbsInst), k < s.cfg.nprbs → s.prbs[k]? = some p →
      ∃ t, runAll (args.map cmd) s = some t ∧ t.prbs[k]? = some (args.foldl f p) := by
  induction args with
  | nil => exact fun s p _ hp => ⟨s, rfl, hp⟩
  | cons arg args ih =>
    intro s p hk hp
    obtain ⟨r, hexec⟩ := hcmd s arg hk
    rw [prbsAt_of_some hp] at hexec
    rw [List.map_cons, runAll, hexec]
    exact ih _ _ hk (List.getElem?_set_self (lt_of_getElem? hp))

/-! ### Self-synchronisation -/

theorem getLsbD_prbsShift_zero (v : BitVec 9) (b : Bool) : (prbsShift v b).getLsbD 0 = b := by
  rw [prbsShift_eq_shiftConcat, BitVec.getLsbD_shiftConcat]; rfl

theorem getLsbD_prbsShift_succ (v : BitVec 9) (b : Bool) {i : Nat} (hi : i + 1 < 9) :
    (prbsShift v b).getLsbD (i + 1) = v.getLsbD i := by
  rw [prbsShift_eq_shiftConcat, BitVec.getLsbD_shiftConcat, decide_eq_true hi]; rfl

/-- Shifting in n bits moves every bit that stays n places up. -/
theorem getLsbD_foldl_prbsShift (bs : List Bool) : ∀ (v : BitVec 9) (i : Nat), i + bs.length < 9 →
    (bs.foldl prbsShift v).getLsbD (i + bs.length) = v.getLsbD i := by
  induction bs with
  | nil => exact fun _ _ _ => rfl
  | cons b bs ih =>
    intro v i hi
    rw [List.length_cons] at hi ⊢
    rw [List.foldl_cons, ← Nat.add_assoc, Nat.add_right_comm, ih _ (i + 1) (by omega),
      getLsbD_prbsShift_succ v b (by omega)]

/-- Of at most nine bits shifted in, each is in the register, the last in bit 0. -/
theorem getLsbD_foldl_prbsShift_of_getElem? (bs : List Bool) : ∀ (v : BitVec 9) (j : Nat) (b : Bool),
    bs.length ≤ 9 → bs[j]? = some b → (bs.foldl prbsShift v).getLsbD (bs.length - 1 - j) = b := by
  induction bs with
  | nil => simp
  | cons a bs ih =>
    intro v j b hlen hj
    rw [List.length_cons] at hlen ⊢
    cases j with
    | zero =>
      obtain rfl : a = b := by simpa using hj
      have hkept := getLsbD_foldl_prbsShift bs (prbsShift v a) 0 (by omega)
      rwa [Nat.zero_add, getLsbD_prbsShift_zero] at hkept
    | succ j =>
      have hindex : bs.length + 1 - 1 - (j + 1) = bs.length - 1 - j := by omega
      rw [hindex]
      exact ih (prbsShift v a) j b (by omega) (by simpa using hj)

/-- The register after a run of PRBS.SYNC depends on the bits fed alone, not on SCNT or LOCKED. -/
theorem lfsr_foldl_prbsTake (args : List Word) (p : PrbsInst) :
    (args.foldl (fun q arg => prbsTake q (argBit arg)) p).lfsr = (args.map argBit).foldl prbsShift p.lfsr := by
  rw [List.foldl_map]
  exact (List.foldl_hom PrbsInst.lfsr fun q arg => (prbsTake_lfsr q (argBit arg)).symm).symm

/-- Settles O39: nine bits shifted into nine places. -/
theorem nineSyncsFillTheRegister : Obligations.NineSyncsFillTheRegister := by
  intro s k p args hk hp hlen
  obtain ⟨t, hrun, ht⟩ := runAll_foldl_prbs (cmd := .prbsSync k) (f := fun q arg => prbsTake q (argBit arg))
    (fun s arg hk => ⟨_, exec_prbsSync arg hk⟩) args s p hk hp
  refine ⟨t, _, hrun, ht, fun j a hj => ?_⟩
  have hbits : (args.map argBit).length = 9 := by rw [List.length_map, hlen]
  have hfed := getLsbD_foldl_prbsShift_of_getElem? (args.map argBit) p.lfsr j (argBit a) hbits.le
    (by rw [List.getElem?_map, hj]; rfl)
  rwa [hbits, ← lfsr_foldl_prbsTake] at hfed

/-! ### The period -/

/-- What PRBS.GEN makes of the register alone. -/
def prbsNext (v : BitVec 9) : BitVec 9 := prbsShift v (prbsFb v)

theorem lfsr_iterate_prbsAdvance (m : Nat) (p : PrbsInst) : (prbsAdvance^[m] p).lfsr = prbsNext^[m] p.lfsr :=
  Function.Semiconj.iterate_right (f := PrbsInst.lfsr) (gb := prbsNext) (fun _ => rfl) m p

/-- The period of seed 1 divides 511 = 7 * 73 and neither 7 nor 73. -/
theorem minimalPeriod_prbsNext : Function.minimalPeriod prbsNext 1#9 = 511 := by
  have hdvd : Function.minimalPeriod prbsNext 1#9 ∣ 511 :=
    Function.IsPeriodicPt.minimalPeriod_dvd (show prbsNext^[511] 1#9 = 1#9 by decide +kernel)
  have h7 : ¬ Function.minimalPeriod prbsNext 1#9 ∣ 7 := fun h =>
    absurd (Function.isPeriodicPt_iff_minimalPeriod_dvd.mpr h) (show prbsNext^[7] 1#9 ≠ 1#9 by decide +kernel)
  have h73 : ¬ Function.minimalPeriod prbsNext 1#9 ∣ 73 := fun h =>
    absurd (Function.isPeriodicPt_iff_minimalPeriod_dvd.mpr h) (show prbsNext^[73] 1#9 ≠ 1#9 by decide +kernel)
  have hdivisors : ∀ d ∈ Nat.divisors 511, ¬ d ∣ 7 → ¬ d ∣ 73 → d = 511 := by decide
  exact hdivisors _ (Nat.mem_divisors.mpr ⟨hdvd, by decide⟩) h7 h73

/-- Settles O40: LFSR is 1 again exactly after multiples of the period. -/
theorem prbsPeriodIs511 : Obligations.PrbsPeriodIs511 := by
  intro s k p arg m hk hp hseed hpos hle
  obtain ⟨t, hrun, ht⟩ := runAll_foldl_prbs (cmd := .prbsGen k) (f := fun q _ => prbsAdvance q)
    (fun s arg hk => ⟨_, exec_prbsGen arg hk⟩) (List.replicate m arg) s p hk hp
  rw [List.map_replicate] at hrun
  rw [List.foldl_const, List.length_replicate] at ht
  refine ⟨t, _, hrun, ht, ?_⟩
  calc (prbsAdvance^[m] p).lfsr = 1#9
      ↔ Function.IsPeriodicPt prbsNext m 1#9 := by rw [lfsr_iterate_prbsAdvance, hseed]; rfl
    _ ↔ 511 ∣ m := by rw [Function.isPeriodicPt_iff_minimalPeriod_dvd, minimalPeriod_prbsNext]
    _ ↔ m = 511 := ⟨fun h => hle.antisymm (Nat.le_of_dvd hpos h), fun h => h ▸ dvd_rfl⟩

end Sys2Proof.Machine
end

section
/-! PROOFS. Sticky lock (44_prbs9.md R226): a locked entry stays locked under every command but CTRL.RSTALL and its own
PRBS.RESET. -/

namespace Sys2Proof.Machine

/-- Entry k of the PRBS bank is locked. -/
def LockedAt (bank : List PrbsInst) (k : Nat) : Prop := ∃ p, bank[k]? = some p ∧ p.locked = true

/-- No bit fed clears LOCKED. -/
theorem prbsTake_locked {p : PrbsInst} (h : p.locked = true) (b : Bool) : (prbsTake p b).locked = true := by
  by_cases hb : b = prbsFb p.lfsr
  · rw [prbsTake_of_match hb, h, Bool.true_or]
  · rw [prbsTake_of_mismatch hb, h]

/-- PRBS.VALIDATE writes LFSR alone. -/
theorem prbsValidated_locked (p : PrbsInst) : (prbsValidated p).locked = p.locked := by
  unfold prbsValidated
  split <;> rfl

section
variable {s : State} {k : Nat}

/-- A write to the bank keeps entry k locked, if a write to that entry does. -/
theorem LockedAt.setPrbs (h : LockedAt s.prbs k) {j : Nat} {q : PrbsInst}
    (hq : j = k → (s.prbsAt j).locked = true → q.locked = true) : LockedAt (s.setPrbs j q).prbs k := by
  obtain ⟨p, hp, hlocked⟩ := h
  by_cases hj : j = k
  · subst hj
    rw [prbsAt_of_some hp] at hq
    exact ⟨q, List.getElem?_set_self (lt_of_getElem? hp), hq rfl hlocked⟩
  · exact ⟨p, (List.getElem?_set_ne hj).trans hp, hlocked⟩

/-- A fault leaves the bank alone, so that a command keeps entry k locked if its effect does. -/
theorem LockedAt.of_guarded (h : LockedAt s.prbs k) {i : Instr} {cs : List (Bool × Cause)} {e : State}
    (he : LockedAt e.prbs k) : ∃ t, guarded i cs s e = .next t ∧ LockedAt t.prbs k := by
  obtain ⟨t, ht⟩ := guarded_answers i cs s e
  refine ⟨t, ht, ?_⟩
  rcases guarded_cases ht with ⟨-, rfl⟩ | ⟨cause, -, rfl⟩
  · exact he
  · rwa [State.takeFault_prbs]

/-- Only the four writing PRBS commands and CTRL.RSTALL write the bank. -/
theorem LockedAt.of_exec (h : LockedAt s.prbs k) {i : Instr} (hrstall : i ≠ .ctrlRstall i.arg)
    (hreset : i ≠ .prbsReset k i.arg) : ∃ t, exec i s = .next t ∧ LockedAt t.prbs k := by
  cases i with
  | ctrlNop | ctrlRdstatus | ctrlClrerr | ctrlRdid | ctrlRdfcmd | ctrlRdfarg | golayCsum | golayEnc | golayDetect
  | golayDecode | convNeg | convS16tou12 | convS16tou8 | convU12tos16 | convU8tos16 => exact ⟨_, rfl, h⟩
  | ctrlRstall => exact absurd rfl hrstall
  | prbsReset j => exact h.of_guarded (h.setPrbs fun hj _ => absurd (by rw [hj]; rfl) hreset)
  | prbsGen => exact h.of_guarded (h.setPrbs fun _ hlocked => hlocked)
  | prbsSync => exact h.of_guarded (h.setPrbs fun _ hlocked => prbsTake_locked hlocked _)
  | prbsValidate => exact h.of_guarded (h.setPrbs fun _ hlocked => (prbsValidated_locked _).trans hlocked)
  | _ => exact h.of_guarded h

end

/-- Settles O41: a command that decodes keeps the lock, and a rejected one only faults. -/
theorem lockIsSticky : Obligations.LockIsSticky := by
  intro s c rest k p hissue hp hlocked hrstall hreset
  have h : LockedAt s.prbs k := ⟨p, hp, hlocked⟩
  suffices hstep : ∃ t, step s = .next t ∧ LockedAt t.prbs k by
    obtain ⟨t, ht, p', hp', hlocked'⟩ := hstep
    exact ⟨t, p', ht, hp', hlocked'⟩
  rw [step_command hissue, runCommand]
  cases hd : decode c with
  | ok i =>
    rw [hd, ne_eq, Except.ok.injEq, ← arg_of_decode hd] at hrstall hreset
    exact LockedAt.of_exec (s := { s with issue := rest }) h hrstall hreset
  | error e => exact ⟨_, rfl, by rwa [State.takeFault_prbs]⟩

end Sys2Proof.Machine
end

section
/-! PROOFS. The legal DEFAULT table, and the weights of words (00_scope.md R10) that the Golay code counts errors by. -/

namespace Sys2Proof.Machine

/-- Settles O44: the legality that the walk over the twelve generator words showed for the state after reset. -/
theorem golayDefaultTableIsLegal : Obligations.GolayDefaultTableIsLegal := defaultGolayE_legal

/-! ### The unit words -/

/-- Bit i of a unit word. -/
theorem getLsbD_unitWord {k : Nat} (hk : k < 12) (i : Nat) : (unitWord k).getLsbD i = decide (k = i) := by
  rw [unitWord, BitVec.getLsbD_shiftLeft, Bool.eq_iff_iff]
  simp
  omega

/-! ### Weights -/

@[simp] theorem weight_zero (n : Nat) : weight 0#n = 0 := by simp [weight]

theorem weight_unitWord : ∀ {k : Nat}, k < 12 → weight (unitWord k) = 1 := by decide

theorem eq_zero_of_weight {n : Nat} {v : BitVec n} (h : weight v = 0) : v = 0#n := by
  rw [weight, List.countP_eq_zero] at h
  exact BitVec.eq_of_getLsbD_eq fun i hi => by simpa using h i (List.mem_range.mpr hi)

/-- The weight of a word is that of its two halves. -/
theorem weight_append {m n : Nat} (a : BitVec m) (b : BitVec n) : weight (a ++ b) = weight a + weight b := by
  have hlow : (List.range n).countP (fun j => (a ++ b).getLsbD j) = weight b :=
    List.countP_congr fun j hj => by rw [BitVec.getLsbD_append, if_pos (List.mem_range.mp hj)]
  have hhigh : (fun j => (a ++ b).getLsbD j) ∘ (n + ·) = fun j => a.getLsbD j := by
    funext j
    simp [BitVec.getLsbD_append]
  have hsplit : List.range (m + n) = List.range n ++ (List.range m).map (n + ·) := by
    rw [Nat.add_comm, List.range_add]
  rw [weight, hsplit, List.countP_append, List.countP_map, hlow, hhigh, Nat.add_comm]
  rfl

/-- A bit of a sum is set only if it is set in a term. -/
theorem weight_xor_le {n : Nat} (a b : BitVec n) : weight (a ^^^ b) ≤ weight a + weight b := by
  unfold weight
  induction List.range n with
  | nil => simp
  | cons j js ih =>
    simp only [List.countP_cons, BitVec.getLsbD_xor] at ih ⊢
    cases a.getLsbD j <;> cases b.getLsbD j <;> simp <;> omega

/-- A word of weight at most 1 is 0 or has one bit alone. -/
theorem eq_zero_or_unitWord {v : BitVec 12} (h : weight v ≤ 1) : v = 0#12 ∨ ∃ k < 12, v = unitWord k := by
  rcases Nat.le_one_iff_eq_zero_or_eq_one.mp h with h | h
  · exact .inl (eq_zero_of_weight h)
  · rw [weight, List.countP_eq_length_filter, List.length_eq_one_iff] at h
    obtain ⟨k, hk⟩ := h
    have hbit (i : Nat) : (i < 12 ∧ v.getLsbD i = true) ↔ i = k := by
      rw [← List.mem_range, ← List.mem_filter, hk, List.mem_singleton]
    have hk12 : k < 12 := ((hbit k).mpr rfl).1
    refine .inr ⟨k, hk12, BitVec.eq_of_getLsbD_eq fun i hi => ?_⟩
    rw [Bool.eq_iff_iff, getLsbD_unitWord hk12, decide_eq_true_iff, eq_comm (a := k), ← hbit i, and_iff_right hi]

end Sys2Proof.Machine
end

section
/-! PROOFS. The sum of a table's rows that a word selects (45_golay.md R242, R244): its bits, its value on a unit word,
and GOLAY.CSUM and GOLAY.ENC, which answer it. -/

namespace Sys2Proof.Machine

open Sys2Proof.Spec

/-! ### The row sum -/

/-- A word has no bits from 12 on to select rows by. -/
theorem xorRows_of_le (v : BitVec 12) : ∀ (t : List (BitVec 12)) (j : Nat), 12 ≤ j → xorRows v j t = 0#12
  | [], _, _ => rfl
  | r :: t, j, hj => by
    rw [xorRows, BitVec.getLsbD_of_ge v j hj, xorRows_of_le v t (j + 1) (by omega)]
    simp

/-- The rows from row j on are row j, if there is one, and the rest. -/
theorem xorRows_drop (v : BitVec 12) (t : List (BitVec 12)) (j : Nat) :
    xorRows v j (t.drop j) = (if v.getLsbD j then t.getD j 0#12 else 0#12) ^^^ xorRows v (j + 1) (t.drop (j + 1)) := by
  by_cases hj : j < t.length
  · rw [List.drop_eq_getElem_cons hj, xorRows, List.getD_eq_getElem _ _ hj]
  · rw [List.drop_eq_nil_of_le (by omega), List.drop_eq_nil_of_le (by omega), List.getD_eq_default _ _ (by omega)]
    simp [xorRows]

/-- Bit i of the sum of the rows from row j on, as the spec's loop over the rows. -/
theorem foldl_getLsbD_xorRows (v : BitVec 12) (t : List (BitVec 12)) (i : Nat) :
    ∀ (n j : Nat) (acc : Bool), j + n = 12 →
      (List.range' j n).foldl (fun acc m => acc ^^ (v.getLsbD m && (t.getD m 0#12).getLsbD i)) acc =
        (acc ^^ (xorRows v j (t.drop j)).getLsbD i)
  | 0, j, acc, hj => by rw [xorRows_of_le v _ j (by omega)]; simp
  | n + 1, j, acc, hj => by
    rw [List.range'_succ, List.foldl_cons, foldl_getLsbD_xorRows v t i n (j + 1) _ (by omega), xorRows_drop v t j,
      BitVec.getLsbD_xor, Bool.xor_assoc]
    cases v.getLsbD j <;> simp

/-- Bit i of the row sum (45_golay.md R242), for a table of any length. -/
theorem getLsbD_xorRows (v : BitVec 12) (t : List (BitVec 12)) (i : Nat) :
    (xorRows v 0 t).getLsbD i = parityBit t v i := by
  rw [parityBit, List.range_eq_range', foldl_getLsbD_xorRows v t i 12 0 false rfl, Bool.false_xor, List.drop_zero]

/-- The row sum is the one word with the product's bits. -/
theorem isProduct_iff (t : List (BitVec 12)) (v p : BitVec 12) : IsProduct t v p ↔ p = xorRows v 0 t := by
  refine ⟨fun h => BitVec.eq_of_getLsbD_eq fun i hi => ?_, fun h i _ => ?_⟩
  · rw [h i hi, getLsbD_xorRows]
  · rw [h, getLsbD_xorRows]

@[simp] theorem xorRows_zero (t : List (BitVec 12)) (j : Nat) : xorRows 0#12 j t = 0#12 := by
  simpa using xorRows_xor 0#12 0#12 t j

/-- A unit word selects one row. -/
theorem xorRows_unitWord {k : Nat} (hk : k < 12) : ∀ (t : List (BitVec 12)) (j : Nat),
    xorRows (unitWord k) j t = if j ≤ k then t.getD (k - j) 0#12 else 0#12
  | [], j => by simp [xorRows]
  | r :: t, j => by
    rw [xorRows, getLsbD_unitWord hk, xorRows_unitWord hk t (j + 1)]
    rcases Nat.lt_trichotomy k j with h | rfl | h
    · simp [h.ne, h.not_ge, show ¬ j + 1 ≤ k by omega]
    · simp
    · obtain ⟨d, rfl⟩ := Nat.exists_eq_add_of_lt h
      simp [show j + d + 1 - j = d + 1 by omega, show j + d + 1 - (j + 1) = d by omega,
        show j + 1 ≤ j + d + 1 by omega, h.ne', h.le]

/-! ### The commands without a check (45_golay.md R242, R243, R245, R246) -/

section
variable (s : State) (arg : Word)

theorem exec_golayCsum : exec (.golayCsum arg) s = .next (s.setRes ((csum s.cfg.golayE (argU12 arg)).setWidth 32)) :=
  rfl

theorem exec_golayEnc : exec (.golayEnc arg) s = .next (s.setRes ((codeword s.cfg.golayE (argU12 arg)).setWidth 32)) :=
  rfl

theorem exec_golayDetect :
    exec (.golayDetect arg) s = .next (s.setRes (detectWord (detect s.cfg.golayE (argU24 arg)))) := rfl

theorem exec_golayDecode :
    exec (.golayDecode arg) s = .next (s.setRes (decodeWord (argU24 arg) (detect s.cfg.golayE (argU24 arg)))) := rfl

end

/-- Settles O42: the parity is the row sum, and the codeword is a concatenation. -/
theorem golayEncodesSystematically : Obligations.GolayEncodesSystematically := by
  intro s arg
  refine ⟨csum s.cfg.golayE (arg.setWidth 12), (isProduct_iff _ _ _).mpr rfl, ?_, ?_,
    encodes_fields (.golayCsum arg) s, encodes_fields (.golayEnc arg) s⟩
  · rw [exec_golayCsum, BitVec.ofNat_toNat]
    rfl
  · have hcode : (codeword s.cfg.golayE (argU12 arg)).toNat =
        arg.toNat % 2 ^ 12 * 2 ^ 12 + (csum s.cfg.golayE (arg.setWidth 12)).toNat := by
      rw [codeword, toNat_append_eq, argU12, BitVec.toNat_setWidth]
    rw [exec_golayEnc, ← hcode, BitVec.ofNat_toNat]
    rfl

end Sys2Proof.Machine
end

section
/-! PROOFS. GOLAY.DETECT and GOLAY.DECODE (45_golay.md R244 to R246): the model's stages are the spec's. -/

namespace Sys2Proof.Machine

open Sys2Proof.Spec

/-- The decode table is the one transpose (45_golay.md R241). -/
theorem eq_decodeTable {ge gd : List (BitVec 12)} (h : IsTranspose ge gd) : gd = decodeTable ge := by
  obtain ⟨hlen, hbits⟩ := h
  refine List.ext_getElem (by rw [hlen, decodeTable_length]) fun i hi hi' => BitVec.eq_of_getLsbD_eq fun j hj => ?_
  rw [← List.getD_eq_getElem gd 0#12 hi, hbits i j (hlen ▸ hi) hj]
  simp [decodeTable, column_getLsbD i ge 0 j hj]

/-- The result form of a mask: the data errors stand in bits 23:12. -/
theorem setWidth_maskOf (d p : BitVec 12) : (maskOf d p).setWidth 32 = d.setWidth 32 <<< 12 ||| p.setWidth 32 :=
  BitVec.setWidth_append_eq_shiftLeft_setWidth_or

theorem setWidth_unitWord : ∀ {k : Nat}, k < 12 → (unitWord k).setWidth 32 = 1#32 <<< k := by decide

/-- The model's stages, over a table and its transpose. -/
theorem detectWord_detectSyndrome {ge : List (BitVec 12)} (hge : ge.length = 12) (s : BitVec 12) :
    detectWord (detectSyndrome ge s) = detectStages ge (decodeTable ge) s (mulD ge s) := by
  have hlt {p : Nat → Bool} {j : Nat} (h : (List.range 12).find? p = some j) : j < 12 :=
    List.mem_range.mp (List.mem_of_find?_eq_some h)
  rw [detectSyndrome, detectStages, findRow_eq, hge]
  by_cases hparity : weight s ≤ 3
  · simp [hparity, detectWord, setWidth_maskOf]
  rw [if_neg hparity, if_neg hparity]
  cases hrow : (List.range 12).find? fun j => decide (weight (s ^^^ ge.getD j 0#12) ≤ 2) with
  | some j => simp [detectWord, setWidth_maskOf, setWidth_unitWord (hlt hrow), BitVec.shiftLeft_add, Nat.add_comm 12]
  | none =>
    rw [Option.map_none, detectData, findRow_eq, decodeTable_length]
    by_cases hdata : weight (mulD ge s) ≤ 3
    · simp [hdata, detectWord, setWidth_maskOf]
    cases hcolumn : (List.range 12).find? fun i =>
        decide (weight (mulD ge s ^^^ (decodeTable ge).getD i 0#12) ≤ 2) with
    | some i => simp [hdata, detectWord, setWidth_maskOf, setWidth_unitWord (hlt hcolumn)]
    | none => simp [hdata, detectWord, sentinel]

/-- A mask is no sentinel, whose bits 31:24 are set. -/
theorem setWidth_ne_sentinel (m : BitVec 24) : m.setWidth 32 ≠ sentinel := by
  intro h
  have hbit : (m.setWidth 32).getLsbD 31 = sentinel.getLsbD 31 := by rw [h]
  rw [BitVec.getLsbD_setWidth, BitVec.getLsbD_of_ge m 31 (by decide)] at hbit
  exact absurd hbit (by decide)

/-- The data half is read from ARG whatever its bits 31:24 are (45_golay.md R246). -/
theorem dataHalf_argU24 (arg : Word) : dataHalf (argU24 arg) = arg.extractLsb' 12 12 :=
  BitVec.extractLsb'_setWidth_of_le (by decide)

theorem parityHalf_argU24 (arg : Word) : parityHalf (argU24 arg) = arg.setWidth 12 := by
  rw [parityHalf, argU24, BitVec.extractLsb'_setWidth_of_le (by decide), BitVec.setWidth_eq_extractLsb' (by decide)]

/-- DECODE's result from DETECT's (45_golay.md R246). -/
theorem decodeWord_eq (arg : Word) (m : Option (BitVec 24)) : decodeWord (argU24 arg) m =
    if detectWord m = sentinel then sentinel else ((arg ^^^ detectWord m).extractLsb' 12 12).setWidth 32 := by
  cases m with
  | none => rfl
  | some e =>
    have hcorrected : argU24 arg ^^^ e = argU24 (arg ^^^ e.setWidth 32) := by
      rw [argU24, argU24, BitVec.setWidth_xor, BitVec.setWidth_setWidth_of_le _ (by decide), BitVec.setWidth_eq]
    rw [detectWord, Option.map_some, Option.getD_some, if_neg (setWidth_ne_sentinel e), decodeWord, Option.map_some,
      Option.getD_some, hcorrected, dataHalf_argU24]

/-- Settles O43: the parity and the inverse syndrome are the row sums that `detect` forms. -/
theorem golayDetectFollowsTheStages : Obligations.GolayDetectFollowsTheStages := by
  intro s arg gd par inv hge hgd hpar hinv
  obtain rfl := eq_decodeTable hgd
  obtain rfl := (isProduct_iff _ _ _).mp hpar
  obtain rfl := (isProduct_iff _ _ _).mp hinv
  have hsyndrome : arg.setWidth 12 ^^^ xorRows (arg.extractLsb' 12 12) 0 s.cfg.golayE =
      syndrome s.cfg.golayE (argU24 arg) := by
    rw [syndrome, parityHalf_argU24, dataHalf_argU24, csum]
  rw [hsyndrome, ← mulD, ← detectWord_detectSyndrome hge, ← detect]
  refine ⟨exec_golayDetect s arg, ?_, encodes_fields (.golayDetect arg) s, encodes_fields (.golayDecode arg) s⟩
  rw [exec_golayDecode, decodeWord_eq]
  rfl

end Sys2Proof.Machine
end

section
/-! PROOFS. Error correction (45_golay.md R247 items 1, 2 and 4): a mask explains the syndrome, and only one mask of
weight at most 3 does when the minimum distance is 8. -/

namespace Sys2Proof.Machine

/-! ### Codewords and syndromes (45_golay.md R243, R244) -/

@[simp] theorem dataHalf_append (d p : BitVec 12) : dataHalf (d ++ p) = d := BitVec.extractLsb'_append_eq_left

@[simp] theorem parityHalf_append (d p : BitVec 12) : parityHalf (d ++ p) = p := BitVec.extractLsb'_append_eq_right

@[simp] theorem dataHalf_codeword (ge : List (BitVec 12)) (v : BitVec 12) : dataHalf (codeword ge v) = v :=
  dataHalf_append _ _

theorem dataHalf_append_parityHalf (c : BitVec 24) : dataHalf c ++ parityHalf c = c :=
  BitVec.extractLsb'_append_extractLsb' (w := 12) (len := 12)

/-- The syndrome is linear. -/
theorem syndrome_xor (ge : List (BitVec 12)) (a b : BitVec 24) :
    syndrome ge (a ^^^ b) = syndrome ge a ^^^ syndrome ge b := by
  simp only [syndrome, dataHalf, parityHalf, BitVec.extractLsb'_xor, csum_xor]
  ac_rfl

@[simp] theorem syndrome_maskOf (ge : List (BitVec 12)) (d p : BitVec 12) :
    syndrome ge (maskOf d p) = p ^^^ csum ge d := by
  rw [syndrome, maskOf, dataHalf_append, parityHalf_append]

@[simp] theorem syndrome_codeword (ge : List (BitVec 12)) (v : BitVec 12) : syndrome ge (codeword ge v) = 0#12 :=
  (syndrome_maskOf ge v _).trans BitVec.xor_self

/-- A word of syndrome 0 is the codeword of its data half. -/
theorem eq_codeword_of_syndrome {ge : List (BitVec 12)} {c : BitVec 24} (h : syndrome ge c = 0#12) :
    c = codeword ge (dataHalf c) := by
  rw [codeword, ← BitVec.xor_eq_zero_iff.mp h, dataHalf_append_parityHalf]

/-! ### Errors that explain a syndrome -/

/-- Three errors at most, `x` in the word that the table t multiplies and `y` in the word added to the product, have the
syndrome s. For t = GE, x is the data error; for t = GD and the inverse syndrome, x is the parity error. -/
def Explains (t : List (BitVec 12)) (s x y : BitVec 12) : Prop := weight x + weight y ≤ 3 ∧ y ^^^ xorRows x 0 t = s

/-- A row that a stage finds explains its syndrome, as an error of the row's bit. -/
theorem explains_of_findRow {t : List (BitVec 12)} (ht : t.length = 12) {s u : BitVec 12} {j : Nat}
    (h : findRow s 0 t = some (j, u)) : Explains t s (unitWord j) u := by
  rw [findRow_eq, ht] at h
  obtain ⟨k, hk, hku⟩ := Option.map_eq_some_iff.mp h
  obtain ⟨hw, hk12, -⟩ := List.find?_range_eq_some.mp hk
  rw [Nat.zero_add, Prod.mk.injEq] at hku
  obtain ⟨rfl, rfl⟩ := hku
  rw [List.mem_range] at hk12
  rw [decide_eq_true_iff] at hw
  refine ⟨by rw [weight_unitWord hk12]; omega, ?_⟩
  rw [xorRows_unitWord hk12, if_pos (Nat.zero_le _), Nat.sub_zero, xor_cancel_right]

/-- A stage finds a row if one error at most falls in the word that its table multiplies; with none there, the stage
before it answers. -/
theorem findRow_ne_none {t : List (BitVec 12)} (ht : t.length = 12) {s x y : BitVec 12} (h : Explains t s x y)
    (hx : weight x ≤ 1) (hs : ¬ weight s ≤ 3) : findRow s 0 t ≠ none := by
  obtain ⟨hw, rfl⟩ := h
  rcases eq_zero_or_unitWord hx with rfl | ⟨k, hk, rfl⟩
  · exact absurd (by simpa using hw) hs
  · intro hnone
    rw [findRow_eq, ht, Option.map_eq_none_iff, List.find?_range_eq_none] at hnone
    have hrow := hnone k hk
    rw [xorRows_unitWord hk, if_pos (Nat.zero_le _), Nat.sub_zero, xor_cancel_right, Bool.not_eq_true',
      decide_eq_false_iff_not] at hrow
    rw [weight_unitWord hk] at hw
    omega

section
variable {ge : List (BitVec 12)}

theorem explains_of_detectData {inv : BitVec 12} {m : BitVec 24} (h : detectData ge inv = some m) :
    ∃ d p, m = maskOf d p ∧ Explains (decodeTable ge) inv p d := by
  rw [detectData] at h
  split at h
  case isTrue hw =>
    cases h
    exact ⟨inv, 0#12, rfl, by simpa using hw, by simp⟩
  case isFalse =>
    split at h
    case h_1 i t hrow =>
      cases h
      exact ⟨t, unitWord i, rfl, explains_of_findRow (decodeTable_length ge) hrow⟩
    case h_2 => cases h

theorem detectData_ne_none {inv d p : BitVec 12} (h : Explains (decodeTable ge) inv p d) (hp : weight p ≤ 1) :
    detectData ge inv ≠ none := by
  rw [detectData]
  split
  case isTrue => exact Option.some_ne_none _
  case isFalse hw =>
    split
    case h_1 => exact Option.some_ne_none _
    case h_2 hrow => exact absurd hrow (findRow_ne_none (decodeTable_length ge) h hp hw)

section
variable (hinv : ∀ v : BitVec 12, mulD ge (csum ge v) = v)
include hinv

/-- On twelve bits an inverse on one side is one on both (45_golay.md R247 item 1). -/
theorem csum_mulD (s : BitVec 12) : csum ge (mulD ge s) = s := by
  have hleft : Function.LeftInverse (mulD ge) (csum ge) := hinv
  exact hleft.rightInverse_of_surjective (Finite.surjective_of_injective hleft.injective) s

/-- The inverse syndrome is explained by the same errors, with the halves' places exchanged. -/
theorem explains_decodeTable_iff {s d p : BitVec 12} :
    Explains (decodeTable ge) (mulD ge s) p d ↔ Explains ge s d p := by
  have hsum : d ^^^ mulD ge p = mulD ge s ↔ p ^^^ csum ge d = s := by
    constructor
    · intro h
      rw [← csum_mulD hinv s, ← h, csum_xor, csum_mulD hinv, BitVec.xor_comm]
    · rintro rfl
      rw [mulD_xor, hinv, BitVec.xor_comm]
  rw [Explains, Explains, ← mulD, ← csum, hsum, Nat.add_comm]

variable (hge : ge.length = 12)
include hge

/-- A mask that the stages answer explains the syndrome. -/
theorem explains_of_detectSyndrome {s : BitVec 12} {m : BitVec 24} (h : detectSyndrome ge s = some m) :
    ∃ d p, m = maskOf d p ∧ Explains ge s d p := by
  rw [detectSyndrome] at h
  split at h
  case isTrue hw =>
    cases h
    exact ⟨0#12, s, rfl, by simpa using hw, by simp⟩
  case isFalse =>
    split at h
    case h_1 j t hrow =>
      cases h
      exact ⟨unitWord j, t, rfl, explains_of_findRow hge hrow⟩
    case h_2 =>
      obtain ⟨d, p, hm, hexp⟩ := explains_of_detectData h
      exact ⟨d, p, hm, (explains_decodeTable_iff hinv).mp hexp⟩

/-- The stages answer a mask if three errors at most explain the syndrome: one half holds one of them at most. -/
theorem detectSyndrome_ne_none {s d p : BitVec 12} (h : Explains ge s d p) : detectSyndrome ge s ≠ none := by
  rw [detectSyndrome]
  split
  case isTrue => exact Option.some_ne_none _
  case isFalse hw =>
    split
    case h_1 => exact Option.some_ne_none _
    case h_2 hrow =>
      have hd : 1 < weight d := Nat.lt_of_not_le fun hd => findRow_ne_none hge h hd hw hrow
      exact detectData_ne_none ((explains_decodeTable_iff hinv).mpr h) (by obtain ⟨hle, -⟩ := h; omega)

/-- What a mask is (45_golay.md R244): three errors at most, with the syndrome of the received word. -/
theorem weight_syndrome_of_detect {c m : BitVec 24} (h : detect ge c = some m) :
    weight m ≤ 3 ∧ syndrome ge m = syndrome ge c := by
  obtain ⟨d, p, rfl, hw, hs⟩ := explains_of_detectSyndrome hinv hge h
  exact ⟨by rwa [maskOf, weight_append], (syndrome_maskOf ge d p).trans hs⟩

/-- Three errors at most are always answered by some mask (45_golay.md R247 item 4). -/
theorem detect_ne_none {c e : BitVec 24} (he : weight e ≤ 3) (hs : syndrome ge e = syndrome ge c) :
    detect ge c ≠ none := by
  rw [← dataHalf_append_parityHalf e, weight_append] at he
  exact detectSyndrome_ne_none hinv hge ⟨he, hs⟩

end

/-- A legal table of twelve entries corrects three errors (45_golay.md R247 item 4): the mask answered and the error
differ by a codeword of weight at most 6, which is 0. -/
theorem detect_codeword_xor (hlegal : GolayLegal ge) (hge : ge.length = 12) (v : BitVec 12) {e : BitVec 24}
    (he : weight e ≤ 3) : detect ge (codeword ge v ^^^ e) = some e := by
  obtain ⟨hinv, hdist⟩ := hlegal
  have hs : syndrome ge (codeword ge v ^^^ e) = syndrome ge e := by
    rw [syndrome_xor, syndrome_codeword, BitVec.zero_xor]
  obtain ⟨m, hm⟩ := Option.ne_none_iff_exists'.mp (detect_ne_none hinv hge he hs.symm)
  obtain ⟨hmw, hms⟩ := weight_syndrome_of_detect hinv hge hm
  have hcode : m ^^^ e = codeword ge (dataHalf (m ^^^ e)) :=
    eq_codeword_of_syndrome (by rw [syndrome_xor, hms, hs, BitVec.xor_self])
  have hzero : dataHalf (m ^^^ e) = 0#12 := by
    by_contra hne
    have hfar := hdist _ hne
    rw [← hcode] at hfar
    have := weight_xor_le m e
    omega
  rw [hzero, codeword_zero] at hcode
  rw [hm, BitVec.xor_eq_zero_iff.mp hcode]

end

/-- Settles O46: the mask has the syndrome of the received word, and so their sum has the syndrome 0. -/
theorem golayMaskLeadsToACodeword : Obligations.GolayMaskLeadsToACodeword := by
  intro ge c m hge hinv hm
  obtain ⟨hw, hs⟩ := weight_syndrome_of_detect hinv hge hm
  exact ⟨hw, _, eq_codeword_of_syndrome (by rw [syndrome_xor, hs, BitVec.xor_self])⟩

/-- Settles O45: DETECT answers the error itself, and the word without it is the codeword. -/
theorem golayCorrectsUpToThreeErrors : Obligations.GolayCorrectsUpToThreeErrors := by
  intro s v e arg hge he harg
  have hdetect : detect s.cfg.golayE (argU24 arg) = some e := by
    rw [hge, argU24, harg, detect_codeword_xor defaultGolayE_legal rfl v he]
  have hdecode : decodeWord (argU24 arg) (some e) = v.setWidth 32 := by
    rw [argU24, harg, decodeWord, Option.map_some, Option.getD_some, xor_cancel_right, dataHalf_codeword]
  rw [exec_golayDetect, exec_golayDecode, hdetect, hdecode]
  exact ⟨rfl, rfl⟩

end Sys2Proof.Machine
end

section
/-! PROOFS. The PUNC pattern commands (46_puncture.md R274 to R277) read and write one bit or the length of one slot;
and the two checks of ARG and of the slot that follow those of INST and IDX (60_exceptions.md R334). -/

namespace Sys2Proof.Machine

open Sys2Proof.Spec

section
variable {i : Instr} {s : State}

/-- With INST below the count, in a row without IDX, a length out of its domain is BAD_ARGUMENT. -/
theorem faults_badArgument (hk : i.fields.inst < countOf s.cfg i.fields.unit)
    (hr : idxRange s.cfg i.fields.unit i.fields.op i.fields.inst = none)
    (ha : badArgument s i.fields (i.arg.toNat % 65536) (i.arg.toNat / 65536) = true) : Faults i 5 s := by
  have hinst : badInstance s i.fields = false := by simp [badInstance, Nat.not_le.mpr hk]
  have hidx : badIndex s i.fields = false := by simp [badIndex, hr]
  exact faults_of_check (by simp [check, hinst, hidx, ha])

/-- And with the lengths in their domains, a slot of length 0 is BAD_CONFIG. -/
theorem faults_badConfig (hk : i.fields.inst < countOf s.cfg i.fields.unit)
    (hr : idxRange s.cfg i.fields.unit i.fields.op i.fields.inst = none)
    (ha : badArgument s i.fields (i.arg.toNat % 65536) (i.arg.toNat / 65536) = false)
    (hc : badConfig s i.fields = true) : Faults i 6 s := by
  have hinst : badInstance s i.fields = false := by simp [badInstance, Nat.not_le.mpr hk]
  have hidx : badIndex s i.fields = false := by simp [badIndex, hr]
  exact faults_of_check (by simp [check, hinst, hidx, ha, hc])

end

section
variable {s : State} {slot n : Nat} {arg : Word}

theorem exec_puncSetpat (hslot : slot < s.cfg.npat) (hn : n < s.cfg.pmax) : exec (.puncSetpat slot n arg) s =
    .next ((s.setSlot slot { s.slotAt slot with bits := (s.slotAt slot).bits.set n (argBit arg) }).setRes resNone) :=
  guarded_of_inst_lt_idx_lt hslot hn

theorem exec_puncRdpat (hslot : slot < s.cfg.npat) (hn : n < s.cfg.pmax) :
    exec (.puncRdpat slot n arg) s = .next (s.setRes (resBit ((s.slotAt slot).bits.getD n false))) :=
  guarded_of_inst_lt_idx_lt hslot hn

theorem exec_puncSetplen (hslot : slot < s.cfg.npat) (hpos : argLen arg ≠ 0) (hmax : argLen arg ≤ s.cfg.pmax) :
    exec (.puncSetplen slot arg) s =
      .next ((s.setSlot slot { s.slotAt slot with plen := argLen arg }).setRes resNone) :=
  guarded_of_pass (by simpa [argCheck] using ⟨hslot, hpos, hmax⟩)

theorem exec_puncRdplen (hslot : slot < s.cfg.npat) :
    exec (.puncRdplen slot arg) s = .next (s.setRes (resNat (s.slotAt slot).plen)) := guarded_of_inst_lt hslot

end

/-- Settles O48: SETPAT and SETPLEN write the slot back with one bit or its length replaced. -/
theorem patternsAreReadAndWritten : Obligations.PatternsAreReadAndWritten := by
  intro s slot n arg
  refine ⟨fun p hslot hn hp => ?_, fun p b hslot hn hp hb => ?_, fun p hslot hp hpos hmax => ?_, fun p hslot hp => ?_,
    fun hslot => ⟨faults_badInstance rfl hslot, faults_badInstance rfl hslot, faults_badInstance rfl hslot,
      faults_badInstance rfl hslot⟩,
    fun hslot hn => ⟨faults_badIndex hslot rfl (.inr hn), faults_badIndex hslot rfl (.inr hn)⟩,
    fun hslot hlen => faults_badArgument hslot rfl (decide_eq_true hlen),
    encodes_fields (.puncSetpat slot n arg) s, encodes_fields (.puncRdpat slot n arg) s,
    encodes_fields (.puncSetplen slot arg) s, encodes_fields (.puncRdplen slot arg) s⟩
  · rw [exec_puncSetpat hslot hn, slotAt_of_some hp]; rfl
  · rw [exec_puncRdpat hslot hn, slotAt_of_some hp, getD_of_getElem? hb]; rfl
  · rw [exec_puncSetplen hslot (Nat.ne_of_gt hpos) hmax, slotAt_of_some hp]; rfl
  · rw [exec_puncRdplen hslot, slotAt_of_some hp]; rfl

end Sys2Proof.Machine
end

section
/-! PROOFS. The runs of PUNC.PUNCT and PUNC.DEPUNCT (46_puncture.md R278, R279, R281). A position of the uncoded stream
that the pattern keeps is paired with the number of kept positions before it, its position in the punctured stream: the
loops carry that number as their other cursor, and fill OUTBUF from bit 0 with the bit the pairing gives. -/

namespace Sys2Proof.Machine

open Sys2Proof.Spec

/-! ### The kept positions -/

section
variable {pat : PatSlot} {i m : Nat}

theorem keptBefore_eq_count (pat : PatSlot) (m : Nat) :
    keptBefore pat m = Nat.count (fun i => keeps pat i = true) m := by
  simp [keptBefore, keptPositions, Nat.count, List.countP_eq_length_filter]

theorem keptBefore_succ_of_keeps (h : keeps pat i = true) : keptBefore pat (i + 1) = keptBefore pat i + 1 := by
  simp only [keptBefore_eq_count, Nat.count_succ, if_pos h]

theorem keptBefore_succ_of_drops (h : ¬ keeps pat i = true) : keptBefore pat (i + 1) = keptBefore pat i := by
  simp only [keptBefore_eq_count, Nat.count_succ, if_neg h, Nat.add_zero]

theorem keptBefore_le_self (pat : PatSlot) (m : Nat) : keptBefore pat m ≤ m := by
  rw [keptBefore_eq_count]; exact Nat.count_le _

theorem keptBefore_mono (pat : PatSlot) (h : i ≤ m) : keptBefore pat i ≤ keptBefore pat m := by
  simp only [keptBefore_eq_count]; exact Nat.count_monotone _ h

theorem keptBefore_lt_of_keeps (h : keeps pat i = true) (him : i < m) : keptBefore pat i < keptBefore pat m := by
  simp only [keptBefore_eq_count]; exact Nat.count_strict_mono h him

theorem keptPositions_succ (pat : PatSlot) (m : Nat) :
    keptPositions pat (m + 1) = keptPositions pat m ++ if keeps pat m = true then [m] else [] := by
  simp [keptPositions, List.range_succ, List.filter_cons]

/-- The kept position at index k of the list is kept, and k kept positions come before it. -/
theorem keeps_of_getElem?_keptPositions {k : Nat} (h : (keptPositions pat m)[k]? = some i) :
    keeps pat i = true ∧ keptBefore pat i = k := by
  induction m with
  | zero => cases h
  | succ m ih =>
    rw [keptPositions_succ, List.getElem?_append] at h
    split at h
    · exact ih h
    · rename_i hk
      split at h
      · rename_i hm
        simp only [List.getElem?_singleton, Option.ite_none_right_eq_some, Option.some.injEq] at h
        obtain ⟨hidx, rfl⟩ := h
        exact ⟨hm, Nat.le_antisymm (Nat.not_lt.mp hk) (Nat.le_of_sub_eq_zero hidx)⟩
      · cases h

end

/-! ### Filling OUTBUF -/

/-- `new` is `old` with its first n stream bits replaced by those of `bit`. -/
structure FilledTo (n : Nat) (bit : Nat → Bool) (old new : Memory) : Prop where
  wf   : new.wf
  bits : ∀ k, streamBit new k = if k < n then bit k else streamBit old k

section
variable {n k : Nat} {bit : Nat → Bool} {old m : Memory}

theorem filledTo_zero (h : old.wf) (bit : Nat → Bool) : FilledTo 0 bit old old := ⟨h, fun _ => rfl⟩

/-- Setting the next bit fills the buffer one bit further. -/
theorem FilledTo.setBit (h : FilledTo n bit old m) : FilledTo (n + 1) bit old (setBit m n (bit n)) := by
  refine ⟨setBit_wf _ _ _ h.wf, fun k => ?_⟩
  rw [streamBit_setBit h.wf, h.bits]
  rcases Nat.lt_trichotomy k n with hlt | rfl | hgt
  · rw [if_neg (by omega), if_pos hlt, if_pos (by omega)]
  · rw [if_pos rfl, if_pos (by omega)]
  · rw [if_neg (by omega), if_neg (by omega), if_neg (by omega)]

theorem FilledTo.bit_of_lt (h : FilledTo n bit old m) (hk : k < n) : streamBit m k = bit k := by
  rw [h.bits, if_pos hk]

theorem FilledTo.sameBitsFrom (h : FilledTo n bit old m) : SameBitsFrom n old m := fun k hk => by
  rw [h.bits, if_neg (Nat.not_lt.mpr hk)]

end

/-! ### Puncturing -/

/-- Bit k of the punctured stream: the input bit at the kept position with k kept positions before it. -/
noncomputable def puncturedBit (pat : PatSlot) (src : Memory) (k : Nat) : Bool :=
  streamBit src (Nat.nth (fun i => keeps pat i = true) k)

theorem puncturedBit_keptBefore {pat : PatSlot} {i : Nat} (h : keeps pat i = true) (src : Memory) :
    puncturedBit pat src (keptBefore pat i) = streamBit src i := by
  rw [puncturedBit, keptBefore_eq_count, Nat.nth_count (p := fun i => keeps pat i = true) h]

/-- The pattern index of a run at position i is i mod PLEN. -/
theorem keepAt_mod (pat : PatSlot) (src : Memory) (i : Nat) :
    keepAt ⟨pat.bits, pat.plen, src⟩ (i % pat.plen) = keeps pat i := rfl

/-- From position i on, the loop goes on filling the output with the punctured stream, up to the last position or the
capacity. -/
theorem punctLoop_fills (pat : PatSlot) (src : Memory) (cap : Nat) {old : Memory} : ∀ (left i : Nat) (out : Memory),
    keptBefore pat i ≤ cap → FilledTo (keptBefore pat i) (puncturedBit pat src) old out →
    ∃ m, punctLoop ⟨pat.bits, pat.plen, src⟩ cap left i (keptBefore pat i) (i % pat.plen) out =
        (min (keptBefore pat (i + left)) cap, m) ∧
      FilledTo (min (keptBefore pat (i + left)) cap) (puncturedBit pat src) old m
  | 0, i, out, hcap, hout => by
    rw [Nat.add_zero, Nat.min_eq_left hcap]
    exact ⟨out, rfl, hout⟩
  | left + 1, i, out, hcap, hout => by
    rw [punctLoop, keepAt_mod, Nat.mod_add_mod, getBit_eq_streamBit, Nat.add_comm left 1, ← Nat.add_assoc]
    split
    · rename_i hfull
      have hcount : keptBefore pat i = cap := Nat.le_antisymm hcap hfull
      have hmono : keptBefore pat i ≤ keptBefore pat (i + 1 + left) := keptBefore_mono pat (by omega)
      rw [Nat.min_eq_right (hcount ▸ hmono), ← hcount]
      exact ⟨out, rfl, hout⟩
    · rename_i hroom
      split
      · rename_i hkeep
        have hnext := hout.setBit
        rw [puncturedBit_keptBefore hkeep, ← keptBefore_succ_of_keeps hkeep] at hnext
        rw [← keptBefore_succ_of_keeps hkeep]
        exact punctLoop_fills pat src cap left (i + 1) _ (by rw [keptBefore_succ_of_keeps hkeep]; omega) hnext
      · rename_i hdrop
        rw [← keptBefore_succ_of_drops hdrop] at hcap hout ⊢
        exact punctLoop_fills pat src cap left (i + 1) out hcap hout

/-! ### Depuncturing -/

/-- Bit o of the depunctured stream: the next input bit where the pattern keeps, an erasure 0 where it drops. -/
def depuncturedBit (pat : PatSlot) (src : Memory) (o : Nat) : Bool := keeps pat o && streamBit src (keptBefore pat o)

/-- Where a run with nbits input bits ends: at the capacity, or before it at the first kept position that finds no input
bit (46_puncture.md R279). -/
structure DepunctStopsAt (pat : PatSlot) (nbits cap w : Nat) : Prop where
  le_cap  : w ≤ cap
  fed     : ∀ o, o < w → keeps pat o = true → keptBefore pat o < nbits
  starved : w < cap → keeps pat w = true ∧ nbits ≤ keptBefore pat w

/-- With exactly the input bits that the positions below the capacity need, a run ends at the capacity. -/
theorem DepunctStopsAt.eq_cap {pat : PatSlot} {cap w : Nat} (h : DepunctStopsAt pat (keptBefore pat cap) cap w) :
    w = cap := by
  by_contra hne
  have hlt : w < cap := Nat.lt_of_le_of_ne h.le_cap hne
  obtain ⟨hkeep, hstarved⟩ := h.starved hlt
  exact Nat.not_lt.mpr hstarved (keptBefore_lt_of_keeps hkeep hlt)

/-- From position o on, with every kept position before it fed, the loop goes on filling the output with the depunctured
stream until the run ends. -/
theorem depunctLoop_fills (pat : PatSlot) (src : Memory) (nbits : Nat) {old : Memory} : ∀ (left o : Nat) (out : Memory),
    (∀ o', o' < o → keeps pat o' = true → keptBefore pat o' < nbits) →
    FilledTo o (depuncturedBit pat src) old out →
    ∃ w m, depunctLoop ⟨pat.bits, pat.plen, src⟩ nbits left o (keptBefore pat o) (o % pat.plen) out =
        (keptBefore pat w, w, m) ∧
      DepunctStopsAt pat nbits (o + left) w ∧ FilledTo w (depuncturedBit pat src) old m
  | 0, o, out, hfed, hout => ⟨o, out, rfl, ⟨Nat.le_refl o, hfed, fun h => absurd h (Nat.lt_irrefl o)⟩, hout⟩
  | left + 1, o, out, hfed, hout => by
    rw [depunctLoop, keepAt_mod, Nat.mod_add_mod, getBit_eq_streamBit, Nat.add_comm left 1, ← Nat.add_assoc]
    have hnext := hout.setBit
    split
    · rename_i hkeep
      split
      · rename_i hstarved
        exact ⟨o, out, rfl, ⟨by omega, hfed, fun _ => ⟨hkeep, hstarved⟩⟩, hout⟩
      · rename_i hin
        rw [depuncturedBit, hkeep, Bool.true_and] at hnext
        rw [← keptBefore_succ_of_keeps hkeep]
        exact depunctLoop_fills pat src nbits left (o + 1) _
          (Nat.forall_lt_succ_right.mpr ⟨hfed, fun _ => Nat.not_le.mp hin⟩) hnext
    · rename_i hdrop
      rw [depuncturedBit, Bool.eq_false_of_not_eq_true hdrop, Bool.false_and] at hnext
      rw [← keptBefore_succ_of_drops hdrop]
      exact depunctLoop_fills pat src nbits left (o + 1) _
        (Nat.forall_lt_succ_right.mpr ⟨hfed, fun hkeep => absurd hkeep hdrop⟩) hnext

/-! ### The commands -/

section
variable {s : State} {slot : Nat} {arg : Word} {p : PatSlot}

theorem runInput_of_some (hp : s.pat[slot]? = some p) : runInput s slot = ⟨p.bits, p.plen, s.inbuf⟩ := by
  rw [runInput, slotAt_of_some hp]

/-- PUNC.PUNCT with its checks passed writes the punctured stream and its length (46_puncture.md R278). -/
theorem exec_puncPunct (hslot : slot < s.cfg.npat) (hp : s.pat[slot]? = some p) (hout : s.outbuf.wf)
    (hplen : p.plen ≠ 0) (hnin : arg.toNat % 65536 ≤ s.cfg.pbufBytes) (hnout : arg.toNat / 65536 ≤ s.cfg.pbufBytes)
    {n : Nat} (hn : n = min (keptBefore p (8 * (arg.toNat % 65536))) (8 * (arg.toNat / 65536))) :
    ∃ m, exec (.puncPunct slot arg) s = .next ((s.setOutbuf m).setRes (resNat n)) ∧
      FilledTo n (puncturedBit p s.inbuf) s.outbuf m := by
  obtain ⟨m, hrun, hm⟩ := punctLoop_fills p s.inbuf (8 * (arg.toNat / 65536)) (8 * (arg.toNat % 65536)) 0 s.outbuf
    (Nat.zero_le _) (filledTo_zero hout _)
  rw [Nat.zero_add, ← hn] at hrun hm
  have hpunct : punctRun s slot (argLo arg) (argHi arg) = (n, m) := by
    rw [punctRun, runInput_of_some hp]; exact hrun
  refine ⟨m, ?_, hm⟩
  rw [exec, execPuncPunct, hpunct]
  exact guarded_of_pass
    (by simpa [argCheck, configCheck, slotAt_of_some hp] using ⟨hslot, ⟨hnin, hnout⟩, hplen⟩)

/-- PUNC.DEPUNCT with its checks passed writes the depunctured stream up to where its run ends, and answers both cursors
(46_puncture.md R279). -/
theorem exec_puncDepunct (hslot : slot < s.cfg.npat) (hp : s.pat[slot]? = some p) (hout : s.outbuf.wf)
    (hplen : p.plen ≠ 0) (hnbits : arg.toNat % 65536 ≤ 8 * s.cfg.pbufBytes)
    (hnout : arg.toNat / 65536 ≤ s.cfg.pbufBytes) :
    ∃ m w, exec (.puncDepunct slot arg) s = .next ((s.setOutbuf m).setRes (depunctWord (keptBefore p w) w)) ∧
      DepunctStopsAt p (arg.toNat % 65536) (8 * (arg.toNat / 65536)) w ∧
      FilledTo w (depuncturedBit p s.inbuf) s.outbuf m := by
  obtain ⟨w, m, hrun, hw, hm⟩ := depunctLoop_fills p s.inbuf (arg.toNat % 65536) (8 * (arg.toNat / 65536)) 0 s.outbuf
    (fun o ho => absurd ho (Nat.not_lt_zero o)) (filledTo_zero hout _)
  rw [Nat.zero_add] at hw
  have hdepunct : depunctRun s slot (argLo arg) (argHi arg) = (keptBefore p w, w, m) := by
    rw [depunctRun, runInput_of_some hp]; exact hrun
  refine ⟨m, w, ?_, hw, hm⟩
  rw [exec, execPuncDepunct, hdepunct]
  exact guarded_of_pass
    (by simpa [argCheck, configCheck, slotAt_of_some hp] using ⟨hslot, ⟨hnbits, hnout⟩, hplen⟩)

end

theorem depunctWord_toNat (consumed written : Nat) :
    (depunctWord consumed written).toNat = consumed % 65536 * 65536 + written % 65536 := by
  rw [depunctWord, toNat_append_eq, BitVec.toNat_ofNat, BitVec.toNat_ofNat]; rfl

theorem depunctWord_eq_ofNat (consumed written : Nat) :
    depunctWord consumed written = BitVec.ofNat 32 (consumed % 65536 * 65536 + written % 65536) := by
  rw [← depunctWord_toNat, BitVec.ofNat_toNat, BitVec.setWidth_eq]

/-- BAD_CONFIG looks at PLEN of the slot that INST names. -/
theorem plen_eq_zero_of_some {s : State} {slot : Nat} {p : PatSlot} (hp : s.pat[slot]? = some p) (h : p.plen = 0) :
    (((s.pat[slot]?).map PatSlot.plen).getD 0 == 0) = true := by
  rw [hp, Option.map_some, Option.getD_some, h]; rfl

/-- Settles O49: an output bit is the input bit of the kept position that it is the number of. -/
theorem punctureKeepsThePatternsBits : Obligations.PunctureKeepsThePatternsBits := by
  intro s slot arg
  refine ⟨fun p hslot hp hout hplen hnin hnout => ?_, fun hslot => faults_badInstance rfl hslot,
    fun hslot hlen => faults_badArgument hslot rfl (decide_eq_true hlen),
    fun p hslot hp hplen hnin hnout => faults_badConfig hslot rfl
      (decide_eq_false (not_or.mpr ⟨Nat.not_lt.mpr hnin, Nat.not_lt.mpr hnout⟩)) (plen_eq_zero_of_some hp hplen),
    encodes_fields (.puncPunct slot arg) s⟩
  obtain ⟨m, hexec, hm⟩ := exec_puncPunct hslot hp hout hplen hnin hnout rfl
  refine ⟨m, _, hexec, rfl, fun o i ho hi => ?_, hm.sameBitsFrom, hm.wf⟩
  obtain ⟨hkeep, rfl⟩ := keeps_of_getElem?_keptPositions hi
  rw [hm.bit_of_lt ho, puncturedBit_keptBefore hkeep]

/-- Settles O50: the run ends where the statement says, with the depunctured stream before that position. -/
theorem depunctureInsertsErasures : Obligations.DepunctureInsertsErasures := by
  intro s slot arg
  refine ⟨fun p hslot hp hout hplen hnbits hnout => ?_, fun hslot => faults_badInstance rfl hslot,
    fun hslot hlen => faults_badArgument hslot rfl (decide_eq_true hlen),
    fun p hslot hp hplen hnbits hnout => faults_badConfig hslot rfl
      (decide_eq_false (not_or.mpr ⟨Nat.not_lt.mpr hnbits, Nat.not_lt.mpr hnout⟩)) (plen_eq_zero_of_some hp hplen),
    encodes_fields (.puncDepunct slot arg) s⟩
  obtain ⟨m, w, hexec, hw, hm⟩ := exec_puncDepunct hslot hp hout hplen hnbits hnout
  rw [depunctWord_eq_ofNat] at hexec
  exact ⟨m, w, hexec, hw.le_cap, hw.fed, hw.starved, fun o ho => hm.bit_of_lt ho, hm.sameBitsFrom, hm.wf⟩

/-! ### Puncture, then depuncture -/

/-- Stream bits below n are equal where the bytes that hold them are. -/
theorem streamBit_eq_of_bytes {m m' : Memory} {n k : Nat}
    (h : ∀ a, a < (n + 7) / 8 → readByte m a = readByte m' a) (hk : k < n) : streamBit m k = streamBit m' k := by
  rw [streamBit, streamBit, h (k / 8) (by omega)]

/-- Depuncturing a stream that starts with the punctured bits of the positions below c gives these positions their bits
back where the pattern keeps. -/
theorem depuncturedBit_of_punctured {pat : PatSlot} {src src' : Memory} {c i : Nat}
    (h : ∀ k, k < keptBefore pat c → streamBit src' k = puncturedBit pat src k) (hi : i < c) :
    depuncturedBit pat src' i = (keeps pat i && streamBit src i) := by
  rw [depuncturedBit]
  by_cases hkeep : keeps pat i = true
  · rw [h _ (keptBefore_lt_of_keeps hkeep hi), puncturedBit_keptBefore hkeep]
  · rw [Bool.eq_false_of_not_eq_true hkeep, Bool.false_and, Bool.false_and]

/-- Settles O51: with room for every kept bit the punctured stream is whole, and it feeds every kept position of the run
back. -/
theorem depunctureUndoesPuncture : Obligations.DepunctureUndoesPuncture := by
  intro s u t t' slot n p arg arg' hs hu hcfg hslot hp hup hplen _ _ hnin hnout hroom ht hn hcopy hlo hhi ht'
  obtain ⟨-, -, -, -, -, -, -, -, -, -, ⟨-, hsize⟩, -⟩ := hs.cfg.sizes
  have hkept := keptBefore_le_self p (8 * (arg.toNat % 65536))
  obtain ⟨m, hexec, hm⟩ := exec_puncPunct hslot hp hs.outbuf.1 hplen hnin hnout (Nat.min_eq_left hroom).symm
  cases hexec.symm.trans ht
  rw [State.setRes_res, resNat, BitVec.toNat_ofNat, Nat.mod_eq_of_lt (by omega)] at hn
  obtain ⟨m', w, hexec', hw, hm'⟩ := exec_puncDepunct (arg := arg') (hcfg ▸ hslot) hup hu.outbuf.1 hplen
    (by rw [hcfg]; omega) (by rw [hcfg]; omega)
  cases hexec'.symm.trans ht'
  rw [hlo, hhi, hn] at hw
  obtain rfl := hw.eq_cap
  constructor
  · rw [State.setRes_res, depunctWord_toNat, ← hn, Nat.mod_eq_of_lt (by omega), Nat.mod_eq_of_lt (by omega)]
  · intro i hi
    rw [State.setRes_outbuf, State.setOutbuf_outbuf, hm'.bit_of_lt hi]
    refine depuncturedBit_of_punctured (fun k hk => ?_) hi
    rw [← hm.bit_of_lt hk]
    exact streamBit_eq_of_bytes hcopy (hn ▸ hk)

end Sys2Proof.Machine
end

section
/-! PROOFS. DC removal and the noise gate (47_dsp_conditioning.md R291 to R294, R301 to R304): their registers written
and read, and their steps. -/

namespace Sys2Proof.Machine

open Sys2Proof.Spec

/-! ### The registers -/

section
variable {s : State} {k n : Nat} (arg : Word)

theorem exec_dcrSetalpha (hk : k < s.cfg.ndcr) :
    exec (.dcrSetalpha k arg) s = .next ((s.setDcr k { s.dcrAt k with alpha := arg }).setRes resNone) :=
  guarded_of_inst_lt hk

theorem exec_ngSetcfg (hk : k < s.cfg.nng) (hn : n < 5) :
    exec (.ngSetcfg k n arg) s = .next ((s.setNg k (ngSetCfg (s.ngAt k) n arg)).setRes resNone) :=
  guarded_of_inst_lt_idx_lt hk hn

theorem exec_dcrRdalpha (hk : k < s.cfg.ndcr) :
    exec (.dcrRdalpha k arg) s = .next (s.setRes (s.dcrAt k).alpha) := guarded_of_inst_lt hk

theorem exec_dcrRdstate (hk : k < s.cfg.ndcr) (hn : n < 2) :
    exec (.dcrRdstate k n arg) s = .next (s.setRes ((dcrRegs (s.dcrAt k)).getD n 0#32)) :=
  guarded_of_inst_lt_idx_lt hk hn

theorem exec_ngRdcfg (hk : k < s.cfg.nng) (hn : n < 5) :
    exec (.ngRdcfg k n arg) s = .next (s.setRes ((ngCfg (s.ngAt k)).getD n 0#32)) :=
  guarded_of_inst_lt_idx_lt hk hn

theorem exec_ngRdstate (hk : k < s.cfg.nng) (hn : n < 2) :
    exec (.ngRdstate k n arg) s = .next (s.setRes ((ngRegs (s.ngAt k)).getD n 0#32)) :=
  guarded_of_inst_lt_idx_lt hk hn

end

/-- Settles O23: DCR has the one register, and each index of NG.SETCFG names its own; from index 5 on it is
BAD_INDEX. -/
theorem conditioningConfigurationStoresVerbatim : Obligations.ConditioningConfigurationStoresVerbatim := by
  intro s k n arg
  refine ⟨fun d hk hd => ?_, fun g hk hg => ?_, fun hk => faults_badInstance rfl hk,
    fun hk => faults_badInstance rfl hk, fun hk hn => faults_badIndex hk rfl (.inr hn),
    encodes_fields (.dcrSetalpha k arg) s, encodes_fields (.ngSetcfg k n arg) s⟩
  · rw [exec_dcrSetalpha arg hk, dcrAt_of_some hd]; rfl
  · have hexec (m : Nat) (hm : m < 5) : exec (.ngSetcfg k m arg) s =
        .next { s with ng := s.ng.set k (ngSetCfg g m arg), res := 0#32 } := by
      rw [exec_ngSetcfg arg hk hm, ngAt_of_some hg]; rfl
    exact ⟨hexec 0 (by decide), hexec 1 (by decide), hexec 2 (by decide), hexec 3 (by decide), hexec 4 (by decide)⟩

/-- Settles O27: an index that names a register of the list that is read passes the check of IDX. -/
theorem conditioningReadback : Obligations.ConditioningReadback := by
  intro s k n arg
  refine ⟨fun d hk hd => ?_, fun d v hk hd hv => ?_, fun g v hk hg hv => ?_, fun g v hk hg hv => ?_,
    fun hk => ⟨faults_badInstance rfl hk, faults_badInstance rfl hk⟩,
    fun hk => ⟨faults_badInstance rfl hk, faults_badInstance rfl hk⟩,
    fun hk hn => faults_badIndex hk rfl (.inr hn), fun hk hn => faults_badIndex hk rfl (.inr hn),
    fun hk hn => faults_badIndex hk rfl (.inr hn),
    encodes_fields (.dcrRdalpha k arg) s, encodes_fields (.dcrRdstate k n arg) s, encodes_fields (.ngRdcfg k n arg) s,
    encodes_fields (.ngRdstate k n arg) s⟩
  · rw [exec_dcrRdalpha arg hk, dcrAt_of_some hd]; rfl
  · rw [exec_dcrRdstate arg hk (lt_of_getElem? hv), dcrAt_of_some hd, dcrRegs, getD_of_getElem? hv]; rfl
  · rw [exec_ngRdcfg arg hk (lt_of_getElem? hv), ngAt_of_some hg, ngCfg, getD_of_getElem? hv]; rfl
  · rw [exec_ngRdstate arg hk (lt_of_getElem? hv), ngAt_of_some hg, ngRegs, getD_of_getElem? hv]; rfl

/-! ### The steps -/

section
variable {s : State} {k : Nat} (arg : Word)

theorem exec_dcrStep (hk : k < s.cfg.ndcr) : exec (.dcrStep k arg) s =
    .next ((s.setDcr k (dcrPush (s.dcrAt k) (f32OfInt (sampleOf arg)))).setRes
      (sampleWord (cvtS16 (dcrY (s.dcrAt k) (f32OfInt (sampleOf arg)))))) := by
  rw [← argS16_eq_sampleOf]
  exact guarded_of_inst_lt hk

theorem exec_ngStep (hk : k < s.cfg.nng) : exec (.ngStep k arg) s =
    .next ((s.setNg k (ngPush (s.ngAt k) (sampleOf arg))).setRes
      (sampleWord (cvtS16 (ngOut (s.ngAt k) (sampleOf arg))))) := by
  rw [← argS16_eq_sampleOf]
  exact guarded_of_inst_lt hk

end

/-- Settles O32: y is `dcrY`, which the entry keeps whole and the answer makes a sample. -/
theorem dcRemovalStep : Obligations.DcRemovalStep := by
  intro s k arg
  refine ⟨fun d y hk hd hy => ?_, fun hk => faults_badInstance rfl hk, encodes_fields (.dcrStep k arg) s⟩
  obtain rfl : y = dcrY d (f32OfInt (sampleOf arg)) := hy
  rw [exec_dcrStep arg hk, dcrAt_of_some hd]; rfl

/-- The target gain of 47_dsp_conditioning.md R302. -/
theorem ngTarget_eq (g : NgInst) (x : Int) :
    ngTarget g x = if fge (f32OfInt |x|) g.thresh then 0x3F800000#32 else 0x00000000#32 := by
  rw [ngTarget, Int.natCast_natAbs]

/-- NG.STEP's effect is the one gate that the three branches of R302 describe. -/
theorem eq_ngPush {g g' : NgInst} {x : Int}
    (hhold : flt g.hold g.holdtime = true → g' = { g with hold := fadd g.hold g.sampletime })
    (hrelease : flt g.hold g.holdtime = false → fle (ngTarget g x) g.sg = true →
      g' = { g with sg := ngSmooth (ngTarget g x) g.release g.sg })
    (hattack : flt g.hold g.holdtime = false → fle (ngTarget g x) g.sg = false →
      g' = { g with sg := ngSmooth (ngTarget g x) g.attack g.sg, hold := 0x00000000#32 }) :
    g' = ngPush g x := by
  unfold ngPush
  split
  case isTrue hlt => exact hhold hlt
  case isFalse hlt =>
    have hlt := Bool.eq_false_of_not_eq_true hlt
    split
    case isTrue hle => exact hrelease hlt hle
    case isFalse hle => exact hattack hlt (Bool.eq_false_of_not_eq_true hle)

/-- Settles O33: g' is `ngPush`, and the output is the sample times its gain. -/
theorem noiseGateStep : Obligations.NoiseGateStep := by
  intro s k arg
  refine ⟨fun g target g' hk hg htarget hhold hrelease hattack => ?_, fun hk => faults_badInstance rfl hk,
    encodes_fields (.ngStep k arg) s⟩
  rw [← ngTarget_eq] at htarget
  subst htarget
  obtain rfl := eq_ngPush hhold hrelease hattack
  rw [exec_ngStep arg hk, ngAt_of_some hg]; rfl

end Sys2Proof.Machine
end

section
/-! PROOFS. Format conversion (47_dsp_conditioning.md R310 to R314): adding or subtracting 32768 flips the sign bit of a
sample, and the conversions shift the rest. -/

namespace Sys2Proof.Machine

open Sys2Proof.Spec

/-! ### Words and samples -/

/-- A number that fits 16 bits is its own sample (00_scope.md R10, R17). -/
theorem resSample_wrap16_of_bounds {v : Int} (hlo : -32768 ≤ v) (hhi : v ≤ 32767) :
    resSample (wrap16 v) = BitVec.ofInt 32 v := by
  rw [wrap16, resSample_toInt, BitVec.signExtend, BitVec.toInt_ofInt_eq_self] <;> omega

theorem sampleOf_range (arg : Word) : -32768 ≤ sampleOf arg ∧ sampleOf arg ≤ 32767 :=
  argS16_eq_sampleOf arg ▸ argS16_range arg

/-- The bits of a word from `lo` on, as an unsigned result. -/
theorem resNat_div_two_pow {lo len : Nat} (x : BitVec (len + lo)) :
    resNat (x.toNat / 2 ^ lo) = (x.extractLsb' lo len).setWidth 32 := by
  have hlt : x.toNat / 2 ^ lo < 2 ^ len := by
    rw [Nat.div_lt_iff_lt_mul (Nat.two_pow_pos lo), ← Nat.pow_add]
    exact x.isLt
  apply BitVec.eq_of_toNat_eq
  rw [resNat, BitVec.toNat_ofNat, BitVec.toNat_setWidth, BitVec.extractLsb'_toNat, Nat.shiftRight_eq_div_pow,
    Nat.mod_eq_of_lt hlt]

/-- A biased sample less its bias is the sample (47_dsp_conditioning.md R313, R314). -/
theorem resSample_sub_bias (x : BitVec 16) :
    resSample ((x.toNat : Int) - 32768) = (x ^^^ 0x8000#16).signExtend 32 := by
  have hflip : BitVec.ofInt 16 ((x.toNat : Int) - 32768) = x ^^^ 0x8000#16 := by
    apply BitVec.eq_of_toNat_eq
    rw [flip_sign_toNat, BitVec.toNat_ofInt]
    omega
  rw [resSample, hflip]

/-- Zeros in the place of the low bits clear them. -/
theorem extractLsb'_append_zero {lo len : Nat} (x : BitVec (len + lo)) :
    x.extractLsb' lo len ++ 0#lo = x &&& (BitVec.allOnes len ++ 0#lo) := by
  have hx : x.extractLsb' lo len ++ x.extractLsb' 0 lo = x := by
    rw [BitVec.extractLsb'_append_extractLsb'_eq_extractLsb' (Nat.zero_add lo).symm, BitVec.extractLsb'_eq_self]
  rw [← hx, BitVec.and_append, BitVec.and_allOnes, BitVec.and_zero, hx]

/-- Flipping bits twice, with other bits cleared in between. -/
theorem flip_clear_flip {w : Nat} {m h : BitVec w} (hm : h &&& m = h) (x : BitVec w) :
    ((x ^^^ h) &&& m) ^^^ h = x &&& m := by
  ext i hi
  have hbit : (h[i] && m[i]) = h[i] := by rw [← BitVec.getElem_and, hm]
  simp only [BitVec.getElem_xor, BitVec.getElem_and, Bool.and_xor_distrib_right, hbit, Bool.xor_assoc, Bool.xor_self,
    Bool.xor_false]

/-- The top bits of a word, as a result and back at their place: with bits flipped before and after, the low bits are
cleared and the others unchanged. -/
theorem shiftBack_shiftOut {lo len : Nat} (hlen : len ≤ 32) {h : BitVec (len + lo)}
    (hm : h &&& (BitVec.allOnes len ++ 0#lo) = h) (x : BitVec (len + lo)) :
    ((((x ^^^ h).extractLsb' lo len).setWidth 32).setWidth len ++ 0#lo) ^^^ h = x &&& (BitVec.allOnes len ++ 0#lo) := by
  rw [BitVec.setWidth_setWidth_of_le _ hlen, BitVec.setWidth_eq, extractLsb'_append_zero, flip_clear_flip hm]

/-! ### The commands -/

section
variable (s : State) (arg : Word)

theorem exec_convNeg : exec (.convNeg arg) s = .next (s.setRes (resSample (wrap16 (-(sampleOf arg))))) := by
  rw [← argS16_eq_sampleOf]
  rfl

theorem exec_convS16tou12 : exec (.convS16tou12 arg) s =
    .next (s.setRes (((arg.setWidth 16 ^^^ 0x8000#16).extractLsb' 4 12).setWidth 32)) := by
  rw [← resNat_div_two_pow, ← biased_toInt]
  rfl

theorem exec_convS16tou8 : exec (.convS16tou8 arg) s =
    .next (s.setRes (((arg.setWidth 16 ^^^ 0x8000#16).extractLsb' 8 8).setWidth 32)) := by
  rw [← resNat_div_two_pow, ← biased_toInt]
  rfl

theorem exec_convU12tos16 : exec (.convU12tos16 arg) s =
    .next (s.setRes (((arg.setWidth 12 ++ 0#4 : BitVec 16) ^^^ 0x8000#16).signExtend 32)) := by
  rw [← resSample_sub_bias, toNat_append_eq]
  rfl

theorem exec_convU8tos16 : exec (.convU8tos16 arg) s =
    .next (s.setRes (((arg.setWidth 8 ++ 0#8 : BitVec 16) ^^^ 0x8000#16).signExtend 32)) := by
  rw [← resSample_sub_bias, toNat_append_eq, BitVec.toNat_setWidth, BitVec.toNat_ofNat, Nat.zero_mod, Nat.add_zero]
  rfl

end

/-- Settles O52: the negation of -32768 alone does not fit a sample. -/
theorem negationWrapsAndForwardConversionsBias : Obligations.NegationWrapsAndForwardConversionsBias := by
  intro s arg
  obtain ⟨hlo, hhi⟩ := sampleOf_range arg
  refine ⟨fun hne => ?_, fun heq => ?_, exec_convS16tou12 s arg, exec_convS16tou8 s arg,
    encodes_fields (.convNeg arg) s, encodes_fields (.convS16tou12 arg) s, encodes_fields (.convS16tou8 arg) s⟩
  · rw [exec_convNeg, resSample_wrap16_of_bounds (by omega) (by omega)]
    rfl
  · rw [exec_convNeg, heq]
    rfl

/-- Settles O53: the sign bit is flipped twice, and the low bits are cleared in between. -/
theorem reverseConversionsInvertTheForward : Obligations.ReverseConversionsInvertTheForward := by
  intro s arg
  refine ⟨exec_convU12tos16 s arg, exec_convU8tos16 s arg, fun t u ht hu => ?_, fun t u ht hu => ?_,
    encodes_fields (.convU12tos16 arg) s, encodes_fields (.convU8tos16 arg) s⟩
  · cases (exec_convS16tou12 s arg).symm.trans ht
    cases (exec_convU12tos16 _ _).symm.trans hu
    rw [State.setRes_res, State.setRes_res]
    exact congrArg (BitVec.signExtend 32) (shiftBack_shiftOut (lo := 4) (len := 12) (h := 0x8000#16)
      (by decide) (by decide) _)
  · cases (exec_convS16tou8 s arg).symm.trans ht
    cases (exec_convU8tos16 _ _).symm.trans hu
    rw [State.setRes_res, State.setRes_res]
    exact congrArg (BitVec.signExtend 32) (shiftBack_shiftOut (lo := 8) (len := 8) (h := 0x8000#16)
      (by decide) (by decide) _)

end Sys2Proof.Machine
end

section
/-! PROOFS. All that a command can do (60_exceptions.md R331 to R335): with its checks passed, one of a few writes to
the state; or else the fault of the first check that fails. -/

namespace Sys2Proof.Machine

open Sys2Proof.Spec

/-- What a command of the row UNIT.OP, with INST = k, may do to `s` when its checks pass: clear the record, clear the
streams, or write RES and at most one buffer, pattern slot or bank entry, which is the one that INST names. Only
CTRL.CLRERR clears the record and only CTRL.RSTALL the streams. -/
inductive Effect (s : State) : (unit op k : Nat) → State → Prop where
  | clearFault (k : Nat) (r : Word) : Effect s 0 3 k (s.clearFault.setRes r)
  | clearStreams (k : Nat) (r : Word) : Effect s 0 1 k (s.clearStreams.setRes r)
  | answer {unit op : Nat} (k : Nat) (r : Word) (h : (unit, op) ≠ (0, 3)) : Effect s unit op k (s.setRes r)
  | fir (op k : Nat) (f : FirInst) (r : Word) : Effect s 1 op k ((s.setFir k f).setRes r)
  | iir (op k : Nat) (f : IirInst) (r : Word) : Effect s 2 op k ((s.setIir k f).setRes r)
  | pwm (op k : Nat) (p : PwmInst) (r : Word) : Effect s 3 op k ((s.setPwm k p).setRes r)
  | cr (op k : Nat) (c : CrInst) (r : Word) : Effect s 4 op k ((s.setCr k c).setRes r)
  | prbs (op k : Nat) (p : PrbsInst) (r : Word) : Effect s 5 op k ((s.setPrbs k p).setRes r)
  | inbuf (op k : Nat) (m : Memory) (r : Word) : Effect s 7 op k ((s.setInbuf m).setRes r)
  | outbuf (op k : Nat) (m : Memory) (r : Word) : Effect s 7 op k ((s.setOutbuf m).setRes r)
  | slot (op k : Nat) (p : PatSlot) (r : Word) : Effect s 7 op k ((s.setSlot k p).setRes r)
  | dcr (op k : Nat) (d : DcrInst) (r : Word) : Effect s 8 op k ((s.setDcr k d).setRes r)
  | ng (op k : Nat) (g : NgInst) (r : Word) : Effect s 9 op k ((s.setNg k g).setRes r)

section
variable {s t : State} {i : Instr}

/-- A meaning that makes the checks of 60_exceptions.md R334 has its effect when they pass. -/
theorem guarded_of_check (hc : check s i = none) {cs : List (Bool × Cause)} {e : State}
    (hcs : firstFailing cs = firstFailing (orderedChecks s i)) : guarded i cs s e = .next e := by
  rw [check_eq_firstFailing, Option.map_eq_none_iff, ← hcs] at hc
  rw [guarded, hc]

/-- A command that passes its checks has an effect of its row. In the order of the cases: no check, a check of INST, of
IDX, of both, and those of ARG and of the slot; in each, answers first and then writes. -/
theorem exec_of_check (hc : check s i = none) :
    ∃ t, exec i s = .next t ∧ Effect s i.fields.unit i.fields.op i.fields.inst t := by
  cases i with
  | ctrlNop | ctrlRdstatus | ctrlRdid | ctrlRdfcmd | ctrlRdfarg | golayCsum | golayEnc | golayDetect | golayDecode
  | convNeg | convS16tou12 | convS16tou8 | convU12tos16 | convU8tos16 => exact ⟨_, rfl, .answer _ _ nofun⟩
  | ctrlClrerr => exact ⟨_, rfl, .clearFault _ _⟩
  | ctrlRstall => exact ⟨_, rfl, .clearStreams _ _⟩
  | firRdn | iirRdn | crGetsp | crRdcount | crRdcursor | crRdprev | prbsRdstate | puncRdplen | dcrRdalpha =>
    exact ⟨_, guarded_inst_of_check hc rfl, .answer _ _ nofun⟩
  | firReset | firStep | firStepf => exact ⟨_, guarded_inst_of_check hc rfl, .fir _ _ _ _⟩
  | iirReset | iirStep | iirStepf => exact ⟨_, guarded_inst_of_check hc rfl, .iir _ _ _ _⟩
  | pwmReset | pwmStep => exact ⟨_, guarded_inst_of_check hc rfl, .pwm _ _ _ _⟩
  | crReset | crSample | crUpdate => exact ⟨_, guarded_inst_of_check hc rfl, .cr _ _ _ _⟩
  | prbsReset | prbsGen | prbsSync | prbsValidate => exact ⟨_, guarded_inst_of_check hc rfl, .prbs _ _ _ _⟩
  | dcrReset | dcrSetalpha | dcrStep => exact ⟨_, guarded_inst_of_check hc rfl, .dcr _ _ _ _⟩
  | ngReset | ngStep => exact ⟨_, guarded_inst_of_check hc rfl, .ng _ _ _ _⟩
  | ctrlRdparam | puncRdin | puncRdout => exact ⟨_, guarded_idx_of_check hc rfl, .answer _ _ nofun⟩
  | puncWrin => exact ⟨_, guarded_idx_of_check hc rfl, .inbuf _ _ _ _⟩
  | puncWrout => exact ⟨_, guarded_idx_of_check hc rfl, .outbuf _ _ _ _⟩
  | firRdtap | firRdhist | iirRdnum | iirRdden | pwmRdcoef | pwmRdstate | crRdenergy | puncRdpat | dcrRdstate
  | ngRdcfg | ngRdstate => exact ⟨_, guarded_inst_idx_of_check hc rfl rfl, .answer _ _ nofun⟩
  | iirRdhist => exact ⟨_, guarded_iirHist_of_check hc rfl Nat.one_pos rfl, .answer _ _ nofun⟩
  | firSettap => exact ⟨_, guarded_inst_idx_of_check hc rfl rfl, .fir _ _ _ _⟩
  | iirSetnum | iirSetden => exact ⟨_, guarded_inst_idx_of_check hc rfl rfl, .iir _ _ _ _⟩
  | puncSetpat => exact ⟨_, guarded_inst_idx_of_check hc rfl rfl, .slot _ _ _ _⟩
  | ngSetcfg => exact ⟨_, guarded_inst_idx_of_check hc rfl rfl, .ng _ _ _ _⟩
  | puncSetplen slot arg =>
    have hlen : argLen arg ≠ 0 ∧ argLen arg ≤ s.cfg.pmax ↔
        ¬ (argLen arg = 0 ∨ s.cfg.pmax < argLen arg) := by omega
    exact ⟨_, guarded_of_check hc (by rw [instCheck_eq, argCheck_eq hlen]; rfl), .slot _ _ _ _⟩
  | puncPunct slot arg =>
    have hlen : argLo arg ≤ s.cfg.pbufBytes ∧ argHi arg ≤ s.cfg.pbufBytes ↔
        ¬ (s.cfg.pbufBytes < argLo arg ∨ s.cfg.pbufBytes < argHi arg) := by omega
    exact ⟨_, guarded_of_check hc (by rw [instCheck_eq, argCheck_eq hlen, configCheck_eq]; rfl), .outbuf _ _ _ _⟩
  | puncDepunct slot arg =>
    have hlen : argLo arg ≤ 8 * s.cfg.pbufBytes ∧ argHi arg ≤ s.cfg.pbufBytes ↔
        ¬ (8 * s.cfg.pbufBytes < argLo arg ∨ s.cfg.pbufBytes < argHi arg) := by omega
    exact ⟨_, guarded_of_check hc (by rw [instCheck_eq, argCheck_eq hlen, configCheck_eq]; rfl), .outbuf _ _ _ _⟩

/-- All that one command can do: an effect of its row when its checks pass, and else a fault. -/
theorem exec_cases (ht : exec i s = .next t) :
    (check s i = none ∧ Effect s i.fields.unit i.fields.op i.fields.inst t) ∨
      ∃ cause, t = s.takeFault cause (encode i) := by
  cases hc : check s i with
  | none =>
    obtain ⟨t', ht', heffect⟩ := exec_of_check hc
    cases ht'.symm.trans ht
    exact .inl ⟨rfl, heffect⟩
  | some code =>
    obtain ⟨cs, e, hexec, hcs⟩ := exec_orderedChecks i s
    rw [check_eq_firstFailing, ← hcs, Option.map_eq_some_iff] at hc
    obtain ⟨cause, hfail, -⟩ := hc
    rw [hexec, guarded_of_fail hfail] at ht
    cases ht
    exact .inr ⟨cause, rfl⟩

/-- One command always answers a next state, with the parameters and the host's events of this one. -/
theorem exec_answers (i : Instr) (s : State) : ∃ t, exec i s = .next t ∧ t.cfg = s.cfg ∧ t.issue = s.issue := by
  obtain ⟨cs, e, hexec, hcfg, hissue⟩ := exec_guarded i s
  obtain ⟨t, ht⟩ := guarded_answers i cs s e
  refine ⟨t, hexec.trans ht, ?_⟩
  rcases guarded_cases ht with ⟨-, rfl⟩ | ⟨cause, -, rfl⟩
  · exact ⟨hcfg, hissue⟩
  · exact ⟨s.takeFault_cfg cause _, s.takeFault_issue cause _⟩

end

/-! ### The fault record -/

/-- The two states have the same fault record (60_exceptions.md R333). -/
def SameRecord (s t : State) : Prop := t.status = s.status ∧ t.faultCmd = s.faultCmd ∧ t.faultArg = s.faultArg

/-- CTRL.CLRERR clears the record, and no other effect touches it (60_exceptions.md R333). -/
theorem Effect.record {s t : State} {unit op k : Nat} (h : Effect s unit op k t) :
    if (unit, op) = (0, 3) then t.status = 0#32 ∧ t.faultCmd = 0#32 ∧ t.faultArg = 0#32 else SameRecord s t := by
  cases h with
  | clearFault => exact ⟨rfl, rfl, rfl⟩
  | answer k r hne =>
    rw [if_neg hne]
    exact ⟨rfl, rfl, rfl⟩
  | _ =>
    rw [if_neg (by simp)]
    exact ⟨rfl, rfl, rfl⟩

/-- With ERR set a fault leaves the record alone (60_exceptions.md R333). -/
theorem sameRecord_takeFault {s : State} (herr : s.status.getLsbD 0 = true) (cause : Cause) (w : Command) :
    SameRecord s (s.takeFault cause w) := by
  rw [takeFault_of_err herr]
  exact ⟨rfl, rfl, rfl⟩

/-- The CMD word of CTRL.CLRERR. -/
theorem encode_cmd_of_clrerr {i : Instr} (h : (i.fields.unit, i.fields.op) = (0, 3)) :
    (encode i).cmd = 0x03000000#32 := by
  cases i with
  | ctrlClrerr => exact (by decide : pack ⟨0, 3, 0, 0, 0⟩ = 0x03000000#32)
  | _ => simp [Instr.fields] at h

/-- Settles O13: the checks that a meaning makes are those of 60_exceptions.md R334, and a fault is R331's. -/
theorem faultingCommandOnlyRecordsTheFault : Obligations.FaultingCommandOnlyRecordsTheFault :=
  fun _ _ _ => faults_of_check

/-- Settles O14: a command that passes its checks has an effect of its row. -/
theorem passingCommandCompletesWithoutAFault : Obligations.PassingCommandCompletesWithoutAFault := by
  intro s i hc
  obtain ⟨t, ht, heffect⟩ := exec_of_check hc
  obtain ⟨t', ht', hcfg, hissue⟩ := exec_answers i s
  cases ht'.symm.trans ht
  exact ⟨t, ht, hcfg, hissue, heffect.record⟩

/-- Settles O15: with ERR set no fault is recorded, and only CTRL.CLRERR, which has that one CMD word, has an effect on
the record. -/
theorem onlyClrerrOrResetClearsTheRecord : Obligations.OnlyClrerrOrResetClearsTheRecord := by
  intro s c rest herr hissue hcmd
  rw [step_command hissue, runCommand]
  cases hd : decode c with
  | error e => exact ⟨_, rfl, sameRecord_takeFault (s := { s with issue := rest }) herr _ c⟩
  | ok i =>
    obtain ⟨t, ht, -⟩ := exec_answers i { s with issue := rest }
    refine ⟨t, ht, ?_⟩
    rcases exec_cases ht with ⟨-, heffect⟩ | ⟨cause, rfl⟩
    · have hclr : (i.fields.unit, i.fields.op) ≠ (0, 3) := fun h =>
        hcmd ((encode_cmd_of_decode hd).symm.trans (encode_cmd_of_clrerr h))
      have hrecord := heffect.record
      rwa [if_neg hclr] at hrecord
    · exact sameRecord_takeFault (s := { s with issue := rest }) herr cause _

/-! ### One step -/

/-- Settles O8, by cases on the event at the port: none, the reset input, a command that decodes, a command that is
rejected. -/
theorem everyStepCompletesAndKeepsTheParameters : Obligations.EveryStepCompletesAndKeepsTheParameters := by
  intro s
  rw [step]
  rcases portStep_cases s with ⟨hissue, hp⟩ | ⟨-, -, hp⟩ | ⟨-, -, i, -, -, hp⟩ | ⟨c, -, e, -, -, hp⟩
  · exact ⟨s, hp, rfl, by rw [hissue]; rfl⟩
  · exact ⟨_, hp, rfl, rfl⟩
  · rw [hp]
    exact exec_answers i s.takeEvent
  · exact ⟨_, hp, s.takeEvent.takeFault_cfg _ c, s.takeEvent.takeFault_issue _ c⟩

/-- Settles O7: with no event the state stays, and the reset input is power-on with the same parameters. -/
theorem stepWaitsOrResets : Obligations.StepWaitsOrResets := by
  refine fun s => ⟨fun hissue => ?_, fun rest hissue => ?_⟩
  · rw [step, portStep, hissue]
  · rw [step, portStep, hissue, State.takeEvent, hissue]
    rfl

end Sys2Proof.Machine
end

section
/-! PROOFS. Isolation of the banks (60_exceptions.md R345, 20_memory.md R103): a command writes no entry but the one it
names, and a banked command reads no other. -/

namespace Sys2Proof.Machine

/-! ### Writing -/

/-- An effect other than CTRL.RSTALL's writes at most the entry of its own unit's bank that INST names, or, in the PUNC
unit, the buffers and pattern slots. -/
theorem Effect.frame {s t : State} {unit op k : Nat} (h : Effect s unit op k t) (hrstall : (unit, op) ≠ (0, 1))
    (j : Nat) :
    ((unit, k) ≠ (1, j) → t.fir[j]? = s.fir[j]?) ∧ ((unit, k) ≠ (2, j) → t.iir[j]? = s.iir[j]?) ∧
    ((unit, k) ≠ (3, j) → t.pwm[j]? = s.pwm[j]?) ∧ ((unit, k) ≠ (4, j) → t.cr[j]? = s.cr[j]?) ∧
    ((unit, k) ≠ (5, j) → t.prbs[j]? = s.prbs[j]?) ∧ ((unit, k) ≠ (8, j) → t.dcr[j]? = s.dcr[j]?) ∧
    ((unit, k) ≠ (9, j) → t.ng[j]? = s.ng[j]?) ∧
    (unit ≠ 7 → t.inbuf = s.inbuf ∧ t.outbuf = s.outbuf ∧ t.pat = s.pat) := by
  cases h with
  | clearStreams => exact absurd rfl hrstall
  | clearFault | answer => simp
  | inbuf | outbuf | slot => simp
  | fir | iir | pwm | cr | prbs | dcr | ng => simp +contextual [List.getElem?_set_ne]

/-- Settles O54: a fault writes no bank, and an effect at most one entry. -/
theorem commandsWriteOnlyTheEntryTheyName : Obligations.CommandsWriteOnlyTheEntryTheyName := by
  intro s t i j hrstall ht
  rcases exec_cases ht with ⟨-, heffect⟩ | ⟨cause, rfl⟩
  · exact heffect.frame hrstall j
  · simp

/-! ### Reading -/

/-- Two states have the same RES and the same entry k of a bank. -/
def SameAnswer {α : Type} (bank : State → List α) (k : Nat) (t t' : State) : Prop :=
  t'.res = t.res ∧ (bank t')[k]? = (bank t)[k]?

section
variable {α : Type} {bank : State → List α} {i : Instr} {s s' t t' : State} {k : Nat}

/-- Two runs of one command with the same checks fault alike, and so agree if their effects do. -/
theorem SameAnswer.of_guarded {cs cs' : List (Bool × Cause)} {e e' : State}
    (hfault : ∀ (u : State) (c : Cause) (w : Command), bank (u.takeFault c w) = bank u)
    (hentry : (bank s')[k]? = (bank s)[k]?) (hcs : cs' = cs) (he : SameAnswer bank k e e')
    (ht : guarded i cs s e = .next t) (ht' : guarded i cs' s' e' = .next t') : SameAnswer bank k t t' := by
  subst hcs
  cases hfail : firstFailing cs' with
  | none =>
    rw [guarded, hfail] at ht ht'
    cases ht
    cases ht'
    exact he
  | some cause =>
    rw [guarded_of_fail hfail] at ht ht'
    cases ht
    cases ht'
    exact ⟨rfl, by rw [hfault, hfault, hentry]⟩

/-- An answer writes no bank. -/
theorem SameAnswer.answer (hbank : ∀ (u : State) (r : Word), bank (u.setRes r) = bank u)
    (hentry : (bank s')[k]? = (bank s)[k]?) {r r' : Word} (hr : r' = r) :
    SameAnswer bank k (s.setRes r) (s'.setRes r') :=
  ⟨hr, by rw [hbank, hbank, hentry]⟩

/-- A write of the same value to entry k leaves the same entry. -/
theorem SameAnswer.write {e e' : State} {v v' : α} (hres : e'.res = e.res) (hset : bank e = (bank s).set k v)
    (hset' : bank e' = (bank s').set k v') (hentry : (bank s')[k]? = (bank s)[k]?) (hv : v' = v) :
    SameAnswer bank k e e' :=
  ⟨hres, by rw [hset, hset', List.getElem?_set_self', List.getElem?_set_self', hentry, hv]⟩

end

/-! A command of a unit makes checks that depend on the parameters alone. In each of the following, the unit's writes
come first and then its answers. -/

section
variable {i : Instr} {s s' t t' : State} {k : Nat} (hk : i.fields.inst = k) (hcfg : s'.cfg = s.cfg)
  (ht : exec i s = .next t) (ht' : exec i s' = .next t')
include hk hcfg ht ht'

theorem fir_sameAnswer (hu : i.fields.unit = 1) (hentry : s'.fir[k]? = s.fir[k]?) :
    SameAnswer State.fir k t t' := by
  have hat : s'.firAt k = s.firAt k := congrArg (Option.getD · _) hentry
  cases i with
  | firReset j | firSettap j | firStep j | firStepf j =>
    obtain rfl : j = k := hk
    exact .of_guarded State.takeFault_fir hentry (by rw [hcfg])
      (.write (by simp [hat]) rfl rfl hentry (by simp [hat])) ht ht'
  | firRdtap j | firRdhist j | firRdn j =>
    obtain rfl : j = k := hk
    exact .of_guarded State.takeFault_fir hentry (by rw [hcfg])
      (.answer State.setRes_fir hentry (by simp only [hat, hcfg])) ht ht'
  | _ => cases hu

theorem iir_sameAnswer (hu : i.fields.unit = 2) (hentry : s'.iir[k]? = s.iir[k]?) :
    SameAnswer State.iir k t t' := by
  have hat : s'.iirAt k = s.iirAt k := congrArg (Option.getD · _) hentry
  cases i with
  | iirReset j | iirSetnum j | iirSetden j | iirStep j | iirStepf j =>
    obtain rfl : j = k := hk
    exact .of_guarded State.takeFault_iir hentry (by rw [hcfg])
      (.write (by simp [hat]) rfl rfl hentry (by simp [hat])) ht ht'
  | iirRdnum j | iirRdden j | iirRdhist j | iirRdn j =>
    obtain rfl : j = k := hk
    exact .of_guarded State.takeFault_iir hentry (by rw [hcfg])
      (.answer State.setRes_iir hentry (by simp only [hat, hcfg])) ht ht'
  | _ => cases hu

theorem pwm_sameAnswer (hu : i.fields.unit = 3) (hentry : s'.pwm[k]? = s.pwm[k]?) :
    SameAnswer State.pwm k t t' := by
  have hat : s'.pwmAt k = s.pwmAt k := congrArg (Option.getD · _) hentry
  cases i with
  | pwmReset j | pwmStep j =>
    obtain rfl : j = k := hk
    exact .of_guarded State.takeFault_pwm hentry (by rw [hcfg])
      (.write (by simp [hat, hcfg]) rfl rfl hentry (by simp [hat, hcfg])) ht ht'
  | pwmRdcoef j | pwmRdstate j =>
    obtain rfl : j = k := hk
    exact .of_guarded State.takeFault_pwm hentry (by rw [hcfg])
      (.answer State.setRes_pwm hentry (by simp only [hat, hcfg])) ht ht'
  | _ => cases hu

theorem cr_sameAnswer (hu : i.fields.unit = 4) (hentry : s'.cr[k]? = s.cr[k]?) :
    SameAnswer State.cr k t t' := by
  have hat : s'.crAt k = s.crAt k := congrArg (Option.getD · _) hentry
  cases i with
  | crReset j | crSample j | crUpdate j =>
    obtain rfl : j = k := hk
    exact .of_guarded State.takeFault_cr hentry (by rw [hcfg])
      (.write (by simp [hat, hcfg]) rfl rfl hentry (by simp [hat, hcfg])) ht ht'
  | crGetsp j | crRdenergy j | crRdcount j | crRdcursor j | crRdprev j =>
    obtain rfl : j = k := hk
    exact .of_guarded State.takeFault_cr hentry (by rw [hcfg])
      (.answer State.setRes_cr hentry (by simp only [hat])) ht ht'
  | _ => cases hu

theorem prbs_sameAnswer (hu : i.fields.unit = 5) (hentry : s'.prbs[k]? = s.prbs[k]?) :
    SameAnswer State.prbs k t t' := by
  have hat : s'.prbsAt k = s.prbsAt k := congrArg (Option.getD · _) hentry
  cases i with
  | prbsReset j | prbsGen j | prbsSync j | prbsValidate j =>
    obtain rfl : j = k := hk
    exact .of_guarded State.takeFault_prbs hentry (by rw [hcfg])
      (.write (by simp [hat]) rfl rfl hentry (by simp [hat])) ht ht'
  | prbsRdstate j =>
    obtain rfl : j = k := hk
    exact .of_guarded State.takeFault_prbs hentry (by rw [hcfg])
      (.answer State.setRes_prbs hentry (by simp only [hat])) ht ht'
  | _ => cases hu

theorem dcr_sameAnswer (hu : i.fields.unit = 8) (hentry : s'.dcr[k]? = s.dcr[k]?) :
    SameAnswer State.dcr k t t' := by
  have hat : s'.dcrAt k = s.dcrAt k := congrArg (Option.getD · _) hentry
  cases i with
  | dcrReset j | dcrSetalpha j | dcrStep j =>
    obtain rfl : j = k := hk
    exact .of_guarded State.takeFault_dcr hentry (by rw [hcfg])
      (.write (by simp [hat]) rfl rfl hentry (by simp [hat])) ht ht'
  | dcrRdalpha j | dcrRdstate j =>
    obtain rfl : j = k := hk
    exact .of_guarded State.takeFault_dcr hentry (by rw [hcfg])
      (.answer State.setRes_dcr hentry (by simp only [hat])) ht ht'
  | _ => cases hu

theorem ng_sameAnswer (hu : i.fields.unit = 9) (hentry : s'.ng[k]? = s.ng[k]?) :
    SameAnswer State.ng k t t' := by
  have hat : s'.ngAt k = s.ngAt k := congrArg (Option.getD · _) hentry
  cases i with
  | ngReset j | ngSetcfg j | ngStep j =>
    obtain rfl : j = k := hk
    exact .of_guarded State.takeFault_ng hentry (by rw [hcfg])
      (.write (by simp [hat]) rfl rfl hentry (by simp [hat])) ht ht'
  | ngRdcfg j | ngRdstate j =>
    obtain rfl : j = k := hk
    exact .of_guarded State.takeFault_ng hentry (by rw [hcfg])
      (.answer State.setRes_ng hentry (by simp only [hat])) ht ht'
  | _ => cases hu

end

/-- Settles O55, bank by bank: two runs that agree on the parameters make the same checks, and two runs that agree on
the entry too have the same effect on it. -/
theorem commandsReadOnlyTheEntryTheyName : Obligations.CommandsReadOnlyTheEntryTheyName :=
  fun _ _ _ _ _ hcfg ht ht' => ⟨fir_sameAnswer rfl hcfg ht ht', iir_sameAnswer rfl hcfg ht ht',
    pwm_sameAnswer rfl hcfg ht ht', cr_sameAnswer rfl hcfg ht ht', prbs_sameAnswer rfl hcfg ht ht',
    dcr_sameAnswer rfl hcfg ht ht', ng_sameAnswer rfl hcfg ht ht'⟩

end Sys2Proof.Machine
end

section
/-! PROOFS. The power-on values (70_reset_and_hazards.md R360, 10_state.md R62): a bank at power-on holds copies of one
entry, or for the filters one entry for each length that the parameters list. -/

namespace Sys2Proof.Machine

/-- Every entry of a replicated list is the one that was replicated. -/
theorem eq_of_getElem?_replicate {α : Type} {n k : Nat} {a v : α} (h : (List.replicate n a)[k]? = some v) : v = a :=
  List.eq_of_mem_replicate (List.mem_of_getElem? h)

/-- An entry of the FIR bank at power-on, whatever its length. -/
theorem powerOn_fir_eq {c : Config} {k : Nat} {f : FirInst} (h : (State.powerOn c).fir[k]? = some f) :
    ∃ n, f = FirInst.powerOn n := by
  obtain ⟨n, -, hn⟩ := List.mem_map.mp (List.mem_of_getElem? h)
  exact ⟨n, hn.symm⟩

theorem powerOn_iir_eq {c : Config} {k : Nat} {f : IirInst} (h : (State.powerOn c).iir[k]? = some f) :
    ∃ n, f = IirInst.powerOn n := by
  obtain ⟨n, -, hn⟩ := List.mem_map.mp (List.mem_of_getElem? h)
  exact ⟨n, hn.symm⟩

/-- Settles O12, register by register in the order of the state. -/
theorem powerOnGivesEveryRegisterItsValue : Obligations.PowerOnGivesEveryRegisterItsValue := by
  intro c
  refine ⟨rfl, rfl, rfl, rfl, rfl, fun k f hf n v hv => ?fir, fun k f hf n v hv => ?iir, fun k p hp => ?pwm,
    fun k r hr => ?cr, fun k p hp => ?prbs, fun a => ⟨rfl, rfl⟩, fun k p hp => ?pat, fun k d hd => ?dcr,
    fun k g hg => ?ng⟩
  case fir =>
    obtain ⟨m, rfl⟩ := powerOn_fir_eq hf
    exact hv.elim eq_of_getElem?_replicate eq_of_getElem?_replicate
  case iir =>
    obtain ⟨m, rfl⟩ := powerOn_iir_eq hf
    exact hv.elim eq_of_getElem?_replicate (·.elim eq_of_getElem?_replicate eq_of_getElem?_replicate)
  case pwm =>
    obtain rfl := eq_of_getElem?_replicate hp
    exact ⟨rfl, rfl, rfl, rfl⟩
  case cr =>
    obtain rfl := eq_of_getElem?_replicate hr
    exact ⟨fun n v => eq_of_getElem?_replicate, rfl, rfl, rfl, rfl⟩
  case prbs =>
    obtain rfl := eq_of_getElem?_replicate hp
    exact ⟨rfl, rfl, rfl⟩
  case pat =>
    obtain rfl := eq_of_getElem?_replicate hp
    exact ⟨rfl, fun n b => eq_of_getElem?_replicate⟩
  case dcr =>
    obtain rfl := eq_of_getElem?_replicate hd
    exact ⟨rfl, rfl, rfl⟩
  case ng =>
    obtain rfl := eq_of_getElem?_replicate hg
    exact ⟨rfl, rfl, rfl, rfl, rfl, rfl, rfl⟩

end Sys2Proof.Machine
end
